-- ==== Sys2Proof/Word.lean ====
section
/-! DEFINITION. The word types of the machine and their plainest arithmetic (00_scope.md R10, R11). -/

namespace Sys2Proof

/-- `u8`: the CPU data bus and the registers A, X, Y, S (00_scope.md R9). -/
abbrev Byte := BitVec 8

/-- `u16`: a CPU address and PC (00_scope.md R9). -/
abbrev Word := BitVec 16

/-- A 14-bit PPU address (61_ppu.md R652). -/
abbrev PpuAddr := BitVec 14

/-- A memory of `w`-bit cells: (address, value) pairs in the canonical form of `Cells.wf`
(addresses strictly rising, no value 0); an unlisted address reads as 0. -/
abbrev Cells (w : Nat) := List (Nat × BitVec w)

/-- A byte memory: a list of `Host.Cell` in canonical form. -/
abbrev Memory := List Host.Cell

/-- `lo(w)` of 00_scope.md R11. -/
def lo (w : Word) : Byte := w.setWidth 8

/-- `hi(w)` of 00_scope.md R11. -/
def hi (w : Word) : Byte := (w >>> 8).setWidth 8

/-- `(h, l)` as a u16, `h` in the high bits: the concatenation of 00_scope.md R10. -/
def word (h l : Byte) : Word := h ++ l

/-- A flag as a bit vector of one bit. -/
def bitOf (b : Bool) : BitVec 1 := BitVec.ofBool b

end Sys2Proof
end

