-- ==== Sys2Proof/Config.lean ====
section
/-! DEFINITION. What one implementation of the core fixes: the open parameters of 00_scope.md R9, as constants
with no body (nothing can evaluate them, so a claim holds whatever they are), and the parameters that have a value. -/

namespace Sys2Proof.Config

/-- ANE_LXA_MAGIC (46_unofficial.md R515, R516; 92_eei_decisions.md D6), OPEN. Log entry 1. -/
opaque aneLxaMagic : Byte

/-- SAMPLE_RATE less one, OPEN: any value that makes SAMPLE_RATE positive and at most 1789772 Hz
(92_eei_decisions.md D33, 62_apu.md R802). Log entry 2. -/
opaque sampleRateLessOne : Fin 1789772

/-- SAMPLE_RATE (62_apu.md R805), fixed for the core's lifetime. -/
def sampleRate : Nat := sampleRateLessOne.val + 1

/-- PALETTE_RGB (61_ppu.md R713; 92_eei_decisions.md D26), OPEN: the red, green and blue bytes of a 9-bit colour.
Log entry 3. -/
opaque paletteRgb : BitVec 9 → Byte × Byte × Byte

/-- The low pattern byte of a sprite slot loaded at k = 7 where rendering was off at k = 5, so that no low byte was read
(61_ppu.md R707 states none): a FREE VALUE, one for each CPU cycle. Log entry 7. -/
opaque unfetchedPattern : Nat → Byte

/-- SUPPORTED_MAPPERS, a parameter (00_scope.md R9): a subset of the six mapper ids that contains 0, as one bit for each of
the others. The core it belongs to holds it (`HostSide.supported`). -/
structure MapperSet where
  m1 : Bool
  m2 : Bool
  m3 : Bool
  m4 : Bool
  m7 : Bool
  deriving DecidableEq, Repr

/-- SUPPORTED_MAPPERS at its default, all six (00_scope.md R9, 63_cartridge_mappers.md R885; 92_eei_decisions.md D39). -/
def allMappers : MapperSet := { m1 := true, m2 := true, m3 := true, m4 := true, m7 := true }

/-- AUDIO_BUFFER_CAPACITY in stereo frames for a sample rate: 4 x ceil(rate / 60) (62_apu.md R803). -/
def audioCapacity (rate : Nat) : Nat := 4 * ((rate + 59) / 60)

/-- The resampler emits a frame each time its accumulator passes this value (62_apu.md R802). -/
def resamplerModulus : Nat := 19687500

/-- Snapshot slots (65_snapshot.md R962). -/
def slotCount : Nat := 10

end Sys2Proof.Config
end

