-- ==== Sys2Proof/Machine/State.lean ====
section
/-! DEFINITION. The state of the machine, as plain data: MachineState (10_state.md R50), and beside it the Cartridge
Image and the host side of the core (R50 names what stands outside MachineState). Each structure names the table of the
spec it holds. `State.reset` is the power-on state of 70_reset_and_hazards.md R1000. -/

namespace Sys2Proof.Machine

/-- The six stored flags of P (10_state.md R56, R59 to R64). -/
structure Flags where
  n : Bool
  v : Bool
  d : Bool
  i : Bool
  z : Bool
  c : Bool
  deriving DecidableEq, Repr

/-- The CPU registers (10_state.md R51 to R56). -/
structure Regs where
  a  : Byte
  x  : Byte
  y  : Byte
  s  : Byte
  pc : Word
  p  : Flags
  deriving DecidableEq, Repr

/-- The hidden CPU state (10_state.md R66 to R71, R74). -/
structure Hidden where
  cycles     : Nat
  nmiPrev    : Bool
  nmiPending : Bool
  irqLevel   : Bool
  intDue     : Bool
  jammed     : Bool
  rstPending : Bool
  deriving DecidableEq, Repr

/-- `addr` and `lo` of 61_ppu.md R707 between the two pattern fetches of a slot, at k = 5 and k = 7. The model's own: R651
names no element for them, and at every step boundary they are a function of the elements it names (`settledLatch`; log
entry 7). -/
structure SpriteLatch where
  addr : BitVec 14
  lo   : Byte
  deriving DecidableEq, Repr

/-- A sprite output unit, `slot[i]` of 61_ppu.md R651. -/
structure SpriteSlot where
  patLo : Byte
  patHi : Byte
  attr  : Byte
  x     : Byte
  deriving DecidableEq, Repr

/-- The PPU registers, counters and pipeline (61_ppu.md R651): everything a dot can change. `sprLatch` is the model's
own. -/
structure Ppu where
  ctrl         : Byte
  mask         : Byte
  vblankFlag   : Bool
  spr0Hit      : Bool
  sprOverflow  : Bool
  oamaddr      : Byte
  v            : BitVec 15
  t            : BitVec 15
  fineX        : BitVec 3
  w            : Bool
  readBuffer   : Byte
  ioLatch      : Byte
  secOam       : Vector Byte 32
  scanline     : Nat
  dot          : Nat
  frameOdd     : Bool
  warmup       : Bool
  suppressVbl  : Bool
  ntLatch      : Byte
  atLatch      : BitVec 2
  patLoLatch   : Byte
  patHiLatch   : Byte
  bgPatLo      : Word
  bgPatHi      : Word
  bgAtLo       : Word
  bgAtHi       : Word
  sprCountNext : Nat
  spr0Next     : Bool
  slots        : Vector SpriteSlot 8
  slot0IsSpr0  : Bool
  fbWork       : Cells 9
  sprLatch     : Option SpriteLatch
  deriving DecidableEq, Repr

/-- The PPU memories (61_ppu.md R651, R653 to R655): only register writes change them. -/
structure VideoMem where
  oam     : Memory
  palette : Cells 6
  ciram   : Memory
  deriving DecidableEq, Repr

/-- The envelope of a pulse or noise channel (62_apu.md R751, R783). -/
structure Envelope where
  start : Bool
  div   : BitVec 4
  decay : BitVec 4
  deriving DecidableEq, Repr

/-- A pulse channel (62_apu.md R751). -/
structure Pulse where
  duty     : BitVec 2
  halt     : Bool
  constVol : Bool
  vol      : BitVec 4
  swEn     : Bool
  swPer    : BitVec 3
  swNeg    : Bool
  swShift  : BitVec 3
  swDiv    : BitVec 3
  swReload : Bool
  period   : BitVec 11
  timer    : BitVec 11
  seq      : BitVec 3
  len      : Byte
  env      : Envelope
  deriving DecidableEq, Repr

/-- The triangle channel (62_apu.md R751). -/
structure Triangle where
  ctrl      : Bool
  linLoad   : BitVec 7
  lin       : BitVec 7
  linReload : Bool
  period    : BitVec 11
  timer     : BitVec 11
  seq       : BitVec 5
  len       : Byte
  deriving DecidableEq, Repr

/-- The noise channel (62_apu.md R751). -/
structure Noise where
  halt     : Bool
  constVol : Bool
  vol      : BitVec 4
  mode     : Bool
  perIdx   : BitVec 4
  timer    : BitVec 12
  lfsr     : BitVec 15
  len      : Byte
  env      : Envelope
  deriving DecidableEq, Repr

/-- The delta modulation channel and its interrupt flag (62_apu.md R751). -/
structure Dmc where
  irqEn     : Bool
  loop      : Bool
  rateIdx   : BitVec 4
  level     : BitVec 7
  startAddr : Word
  length    : BitVec 12
  addr      : Word
  remain    : BitVec 12
  buffer    : Byte
  bufEmpty  : Bool
  shift     : Byte
  bits      : Nat
  silence   : Bool
  timer     : BitVec 9
  irq       : Bool
  deriving DecidableEq, Repr

/-- The APU frame counter and its interrupt flag (62_apu.md R751, R780 to R782). -/
structure FrameCounter where
  mode       : Bool
  inhibit    : Bool
  cycle      : Nat
  resetDelay : Nat
  irq        : Bool
  deriving DecidableEq, Repr

/-- The APU state (62_apu.md R751); `enP1` to `enNoi` are `en[0..3]`. -/
structure Apu where
  p1    : Pulse
  p2    : Pulse
  tri   : Triangle
  noi   : Noise
  enP1  : Bool
  enP2  : Bool
  enTri : Bool
  enNoi : Bool
  dmc   : Dmc
  fc    : FrameCounter
  rsAcc : Nat
  deriving DecidableEq, Repr

/-- The cartridge RAMs (63_cartridge_mappers.md R851). `chrRam` is used only when the image has no CHR ROM, `cartVram`
only in four-screen mode. -/
structure Cart where
  prgRam   : Memory
  chrRam   : Memory
  cartVram : Memory
  deriving DecidableEq, Repr

/-- The MMC1 registers (63_cartridge_mappers.md R861). -/
structure Mmc1 where
  shift     : BitVec 5
  count     : Nat
  lastWrite : BitVec 64
  ctrl      : BitVec 5
  chr0      : BitVec 5
  chr1      : BitVec 5
  prg       : BitVec 5
  deriving DecidableEq, Repr

/-- The MMC3 registers (63_cartridge_mappers.md R870, R881). -/
structure Mmc3 where
  sel         : BitVec 3
  prgMode     : Bool
  chrInv      : Bool
  r           : Vector Byte 8
  mirror      : Bool
  ramEn       : Bool
  ramWp       : Bool
  latch       : Byte
  counter     : Byte
  reload      : Bool
  irqEn       : Bool
  irq         : Bool
  a12LastHigh : BitVec 64
  deriving DecidableEq, Repr

/-- The mapper variant, selected once at load (63_cartridge_mappers.md R850), with its registers. -/
inductive Mapper where
  | nrom
  | mmc1 (r : Mmc1)
  | uxrom (bank : Byte)
  | cnrom (chr : Byte)
  | mmc3 (r : Mmc3)
  | axrom (reg : Byte)
  deriving DecidableEq, Repr

/-- The controller ports (64_frame_driver_io.md R901). -/
structure Ports where
  latched0 : Byte
  latched1 : Byte
  strobe   : Bool
  shreg0   : Byte
  shreg1   : Byte
  deriving DecidableEq, Repr

/-- MachineState (10_state.md R50). `dmaPage` and `dmaReq` are `oam_dma_page` and `oam_dma_req` of 20_memory.md R115;
`dmaReq` is 0 at every step boundary, so the snapshot holds neither. -/
structure MachineState where
  regs       : Regs
  hidden     : Hidden
  ram        : Memory
  openBus    : Byte
  dmaPage    : Byte
  dmaReq     : Bool
  ppu        : Ppu
  vmem       : VideoMem
  apu        : Apu
  cart       : Cart
  mapper     : Mapper
  ports      : Ports
  frameCount : BitVec 32
  frameDone  : Bool
  deriving DecidableEq, Repr

/-- The Cartridge Image (63_cartridge_mappers.md R851, R852): immutable. -/
structure Image where
  mapperId   : Byte
  prgCount   : Byte
  chrCount   : Byte
  prgRom     : Memory
  chrRom     : Memory
  trainer    : Option Memory
  vertical   : Bool
  fourScreen : Bool
  battery    : Bool
  name       : List Byte
  deriving DecidableEq, Repr

/-- The control states (64_frame_driver_io.md R925). -/
inductive Control where
  | notInitialised | idle | ready | running | paused | error
  deriving DecidableEq, Repr

/-- The channel enables (62_apu.md R801). -/
structure Channels where
  square1  : Bool
  square2  : Bool
  triangle : Bool
  noise    : Bool
  dmc      : Bool
  deriving DecidableEq, Repr

/-- The overscan crop (64_frame_driver_io.md R915). -/
structure Overscan where
  top    : Nat
  bottom : Nat
  left   : Nat
  right  : Nat
  deriving DecidableEq, Repr

/-- The host side of the core: what the spec keeps beside MachineState (10_state.md R50). `frameBuffer` holds the
9-bit colours last published, `none` while every byte of the FrameBuffer is 0 (61_ppu.md R713,
64_frame_driver_io.md R910); `audio` is the AudioSampleBuffer, oldest frame first (62_apu.md R803); `fps` holds the 64 bits
of a double (64_frame_driver_io.md R916); `supported` is the parameter SUPPORTED_MAPPERS, which no operation changes. -/
structure HostSide where
  control     : Control
  input0      : Byte
  input1      : Byte
  channels    : Channels
  overscan    : Overscan
  frameCb     : Bool
  audioCb     : Bool
  frameBuffer : Option (Cells 9)
  audio       : List (BitVec 16 × BitVec 16)
  slots       : Vector (Option (List Byte)) 10
  quick       : Option (List Byte)
  fps         : BitVec 64
  lastCall    : Option Rat
  supported   : Config.MapperSet
  deriving DecidableEq, Repr

/-- The whole core. -/
structure State where
  mach  : MachineState
  image : Option Image
  host  : HostSide
  deriving DecidableEq, Repr

/-- Why a step stops. The machine has no fault of its own (60_exceptions.md R600, R627). -/
inductive Fault where
  /-- The source's "internal consistency fault" (60_exceptions.md R627), which this machine never produces: `step`
  answers it only where the decoder gives no instruction for the bytes fetched, and the decoder is total
  (30_encoding.md R158). Safe: the machine stops. -/
  | internalConsistency
  deriving DecidableEq, Repr

/-- Why an instruction has no meaning here. -/
inductive Refusal where
  /-- Raised by an arm of `exec` for an instruction that has no meaning yet; no arm raises it. Safe. -/
  | notModelled (mnemonic : String)
  deriving DecidableEq, Repr

/-- Power-on values of a pulse channel (62_apu.md R751, column "power"). -/
def Pulse.powerOn : Pulse :=
  { duty := 0, halt := false, constVol := false, vol := 0, swEn := false, swPer := 0, swNeg := false, swShift := 0,
    swDiv := 0, swReload := false, period := 0, timer := 0, seq := 0, len := 0,
    env := { start := false, div := 0, decay := 0 } }

/-- Power-on values of the APU (62_apu.md R751, column "power"). -/
def Apu.powerOn : Apu :=
  { p1 := Pulse.powerOn
    p2 := Pulse.powerOn
    tri := { ctrl := false, linLoad := 0, lin := 0, linReload := false, period := 0, timer := 0, seq := 0, len := 0 }
    noi := { halt := false, constVol := false, vol := 0, mode := false, perIdx := 0, timer := 0, lfsr := 1, len := 0,
             env := { start := false, div := 0, decay := 0 } }
    enP1 := false, enP2 := false, enTri := false, enNoi := false
    dmc := { irqEn := false, loop := false, rateIdx := 0, level := 0, startAddr := 0xC000, length := 1, addr := 0xC000,
             remain := 0, buffer := 0, bufEmpty := true, shift := 0, bits := 8, silence := true, timer := 0,
             irq := false }
    fc := { mode := false, inhibit := false, cycle := 0, resetDelay := 0, irq := false }
    rsAcc := 0 }

/-- Power-on values of the PPU (61_ppu.md R651, column "power"). -/
def Ppu.powerOn : Ppu :=
  { ctrl := 0, mask := 0, vblankFlag := false, spr0Hit := false, sprOverflow := false, oamaddr := 0, v := 0, t := 0,
    fineX := 0, w := false, readBuffer := 0, ioLatch := 0, secOam := Vector.replicate 32 0xFF, scanline := 0, dot := 0,
    frameOdd := false, warmup := true, suppressVbl := false, ntLatch := 0, atLatch := 0, patLoLatch := 0,
    patHiLatch := 0, bgPatLo := 0, bgPatHi := 0, bgAtLo := 0, bgAtHi := 0, sprCountNext := 0, spr0Next := false,
    slots := Vector.replicate 8 { patLo := 0, patHi := 0, attr := 0, x := 0 }, slot0IsSpr0 := false, fbWork := [],
    sprLatch := none }

/-- The power-on MachineState of 70_reset_and_hazards.md R1000, with every memory all zero and mapper 0. Power-on of a
loaded image also sets the mapper and PRG RAM (`powerOnMachine`). -/
def MachineState.powerOn : MachineState :=
  { regs := { a := 0, x := 0, y := 0, s := 0, pc := 0,
              p := { n := false, v := false, d := false, i := true, z := false, c := false } }
    hidden := { cycles := 0, nmiPrev := false, nmiPending := false, irqLevel := false, intDue := false, jammed := false,
                rstPending := true }
    ram := [], openBus := 0, dmaPage := 0, dmaReq := false
    ppu := Ppu.powerOn
    vmem := { oam := [], palette := [], ciram := [] }
    apu := Apu.powerOn
    cart := { prgRam := [], chrRam := [], cartVram := [] }
    mapper := .nrom
    ports := { latched0 := 0, latched1 := 0, strobe := false, shreg0 := 0, shreg1 := 0 }
    frameCount := 0, frameDone := false }

/-- The host side right after `init` (64_frame_driver_io.md R928): Idle, every channel enabled (62_apu.md R801), no crop
(64_frame_driver_io.md R915), no callback (R911, R912), empty slots (65_snapshot.md R962), SUPPORTED_MAPPERS at its default
(00_scope.md R9). DESIGN CHOICE, log entry 30: both bytes of the InputState are 0 and the AudioSampleBuffer is empty, for
neither of which a rule gives the value at `init`. -/
def HostSide.init : HostSide :=
  { control := .idle, input0 := 0, input1 := 0
    channels := { square1 := true, square2 := true, triangle := true, noise := true, dmc := true }
    overscan := { top := 0, bottom := 0, left := 0, right := 0 }
    frameCb := false, audioCb := false, frameBuffer := none, audio := []
    slots := Vector.replicate 10 none, quick := none, fps := 0, lastCall := none,
    supported := Config.allMappers }

/-- The core right after power-on with no cartridge image loaded: MachineState as 70_reset_and_hazards.md R1000 sets it
(`rst_pending = 1`, so the first step is the reset sequence), the host side as `init` leaves it. Log entry 4 says how a
program comes to run from here. -/
def State.reset : State := { mach := MachineState.powerOn, image := none, host := HostSide.init }

end Sys2Proof.Machine
end

