-- ==== Sys2Proof/Machine/ApuUnits.lean ====
section
/-! DEFINITION. The channel units of the APU, their tables and timers (62_apu.md R775, R776, R783 to R792). -/

namespace Sys2Proof.Machine

/-! ## Tables (62_apu.md R775) -/

/-- LENGTH[0..31]. -/
def lengthTable : List Byte :=
  [10, 254, 20, 2, 40, 4, 80, 6, 160, 8, 60, 10, 14, 12, 26, 14] ++
  [12, 16, 24, 18, 48, 20, 96, 22, 192, 24, 72, 26, 16, 28, 32, 30]

/-- `LENGTH[v[7:3]]`: the length that a length-load register write selects. -/
def lengthOf (v : Byte) : Byte := lengthTable.getD (v >>> 3).toNat 0

/-- DUTY[d][s]: bit s of the pattern is the output at sequencer position s. -/
def dutyBit (d : BitVec 2) (s : BitVec 3) : Bool :=
  let pattern : Byte :=
    match d.toNat with
    | 0 => 0x80
    | 1 => 0xC0
    | 2 => 0xF0
    | _ => 0x3F
  pattern.getLsbD s.toNat

/-- TRI[0..31]: 15 down to 0, then 0 up to 15; the output of the triangle, stopped or not (62_apu.md R788, against R785: the
model's choice, log entry 29). -/
def triangleOut (s : BitVec 5) : Nat := if s.toNat < 16 then 15 - s.toNat else s.toNat - 16

/-- NOISE_PERIOD[0..15], in CPU cycles. -/
def noisePeriods : List Nat := [4, 8, 16, 32, 64, 96, 128, 160, 202, 254, 380, 508, 762, 1016, 2034, 4068]

/-- The reload of the noise timer: NOISE_PERIOD[i] / 2 - 1. -/
def noiseReload (i : BitVec 4) : BitVec 12 := BitVec.ofNat 12 (noisePeriods.getD i.toNat 0 / 2 - 1)

/-- DMC_RATE[0..15], in CPU cycles. -/
def dmcRates : List Nat := [428, 380, 340, 320, 286, 254, 226, 214, 190, 160, 142, 128, 106, 84, 72, 54]

/-- The reload of the DMC timer: DMC_RATE[i] / 2 - 1. -/
def dmcReload (i : BitVec 4) : BitVec 9 := BitVec.ofNat 9 (dmcRates.getD i.toNat 0 / 2 - 1)

/-! ## Envelope, length counter, sweep -/

/-- A quarter-frame clock of an envelope with divider period `vol` and loop flag `halt` (62_apu.md R783). -/
def Envelope.clock (e : Envelope) (vol : BitVec 4) (halt : Bool) : Envelope :=
  if e.start then { start := false, decay := 15, div := vol }
  else if e.div = 0 then
    { e with div := vol, decay := if e.decay ≠ 0 then e.decay - 1 else if halt then 15 else e.decay }
  else { e with div := e.div - 1 }

/-- A half-frame clock of a length counter (62_apu.md R785). -/
def lengthClock (len : Byte) (halt : Bool) : Byte := if len ≠ 0 && !halt then len - 1 else len

/-- The sweep target of a pulse channel, as an integer; pulse 1 (`first`) negates in ones' complement (62_apu.md
R784). -/
def Pulse.sweepTarget (p : Pulse) (first : Bool) : Int :=
  let change : Int := (p.period >>> p.swShift.toNat).toNat
  if p.swNeg then (p.period.toNat : Int) - change - (if first then 1 else 0) else (p.period.toNat : Int) + change

/-- `muted` (62_apu.md R784). -/
def Pulse.muted (p : Pulse) (first : Bool) : Bool := p.period.toNat < 8 || decide (p.sweepTarget first > 0x7FF)

/-- A half-frame clock of a sweep unit (62_apu.md R784). -/
def Pulse.sweepClock (p : Pulse) (first : Bool) : Pulse :=
  let apply := p.swDiv = 0 && p.swEn && p.swShift != 0 && !p.muted first
  { p with period := if apply then BitVec.ofInt 11 (p.sweepTarget first) else p.period
           swDiv := if p.swDiv = 0 || p.swReload then p.swPer else p.swDiv - 1
           swReload := if p.swDiv = 0 || p.swReload then false else p.swReload }

/-- A quarter-frame clock of the triangle's linear counter (62_apu.md R786). -/
def Triangle.linearClock (t : Triangle) : Triangle :=
  { t with lin := if t.linReload then t.linLoad else if t.lin ≠ 0 then t.lin - 1 else t.lin
           linReload := t.linReload && t.ctrl }

/-- Q: clocks the quarter-frame units (62_apu.md R780, R783, R786). -/
def Apu.quarterFrame (a : Apu) : Apu :=
  { a with p1 := { a.p1 with env := a.p1.env.clock a.p1.vol a.p1.halt }
           p2 := { a.p2 with env := a.p2.env.clock a.p2.vol a.p2.halt }
           noi := { a.noi with env := a.noi.env.clock a.noi.vol a.noi.halt }
           tri := a.tri.linearClock }

/-- H: clocks the half-frame units (62_apu.md R780, R784, R785). -/
def Apu.halfFrame (a : Apu) : Apu :=
  let p1 := a.p1.sweepClock true
  let p2 := a.p2.sweepClock false
  { a with p1 := { p1 with len := lengthClock p1.len p1.halt }
           p2 := { p2 with len := lengthClock p2.len p2.halt }
           tri := { a.tri with len := lengthClock a.tri.len a.tri.ctrl }
           noi := { a.noi with len := lengthClock a.noi.len a.noi.halt } }

/-! ## Timers (62_apu.md R776) -/

/-- One clock of a pulse timer: the event steps the duty sequencer (62_apu.md R776, R787). -/
def Pulse.clock (p : Pulse) : Pulse :=
  if p.timer = 0 then { p with timer := p.period, seq := p.seq - 1 } else { p with timer := p.timer - 1 }

/-- One clock of the triangle timer (62_apu.md R776, R788). -/
def Triangle.clock (t : Triangle) : Triangle :=
  if t.timer = 0 then { t with timer := t.period, seq := if t.len ≠ 0 && t.lin ≠ 0 then t.seq + 1 else t.seq }
  else { t with timer := t.timer - 1 }

/-- The noise shift register after an event (62_apu.md R789). -/
def lfsrNext (mode : Bool) (r : BitVec 15) : BitVec 15 :=
  let fb := r.getLsbD 0 ^^ (if mode then r.getLsbD 6 else r.getLsbD 1)
  (r >>> 1) ||| (if fb then 0x4000 else 0)

/-- One clock of the noise timer (62_apu.md R776, R789). -/
def Noise.clock (n : Noise) : Noise :=
  if n.timer = 0 then { n with timer := noiseReload n.perIdx, lfsr := lfsrNext n.mode n.lfsr }
  else { n with timer := n.timer - 1 }

/-- The DMC timer event: the output unit (62_apu.md R791). -/
def Dmc.output (d : Dmc) : Dmc :=
  let level :=
    if d.silence then d.level
    else if d.shift.getLsbD 0 then (if d.level ≤ 125 then d.level + 2 else d.level)
    else (if d.level ≥ 2 then d.level - 2 else d.level)
  let d := { d with level := level, shift := d.shift >>> 1, bits := d.bits - 1 }
  if d.bits = 0 then
    if d.bufEmpty then { d with bits := 8, silence := true }
    else { d with bits := 8, silence := false, shift := d.buffer, bufEmpty := true }
  else d

/-- One clock of the DMC timer (62_apu.md R776, R791). -/
def Dmc.clock (d : Dmc) : Dmc :=
  if d.timer = 0 then { d.output with timer := dmcReload d.rateIdx } else { d with timer := d.timer - 1 }

/-- `DmcRestart()` (62_apu.md R792). -/
def Dmc.restart (d : Dmc) : Dmc := { d with addr := d.startAddr, remain := d.length }

/-- The request condition of the DMC DMA (62_apu.md R790). -/
def Dmc.request (d : Dmc) : Bool := d.bufEmpty && d.remain != 0

/-- The DMC after its memory reader has read `b` (62_apu.md R790, s4; R793). -/
def Dmc.fetched (d : Dmc) (b : Byte) : Dmc :=
  let d := { d with buffer := b, bufEmpty := false, addr := if d.addr = 0xFFFF then 0x8000 else d.addr + 1,
                    remain := d.remain - 1 }
  if d.remain = 0 then (if d.loop then d.restart else if d.irqEn then { d with irq := true } else d) else d

/-! ## Channel outputs -/

/-- The volume of an envelope: `EnvOut` (62_apu.md R783). -/
def envOut (constVol : Bool) (vol : BitVec 4) (e : Envelope) : Nat := if constVol then vol.toNat else e.decay.toNat

/-- `PulseOut` (62_apu.md R787). -/
def Pulse.out (p : Pulse) (first : Bool) : Nat :=
  if !dutyBit p.duty p.seq || p.len = 0 || p.muted first then 0 else envOut p.constVol p.vol p.env

/-- `NoiseOut` (62_apu.md R789). -/
def Noise.out (n : Noise) : Nat := if n.lfsr.getLsbD 0 || n.len = 0 then 0 else envOut n.constVol n.vol n.env

end Sys2Proof.Machine
end

