-- ==== Sys2Proof/Machine/ApuRegs.lean ====
section
/-! DEFINITION. The APU registers $4000-$4017 (62_apu.md R752 to R770). -/

namespace Sys2Proof.Machine

/-- The four register writes of a pulse channel, by register 0 to 3; `en` is its enable bit (62_apu.md R753 to R757). -/
def Pulse.write (p : Pulse) (en : Bool) (r : Nat) (v : Byte) : Pulse :=
  match r with
  | 0 => { p with duty := (v >>> 6).setWidth 2, halt := v.getLsbD 5, constVol := v.getLsbD 4, vol := v.setWidth 4 }
  | 1 =>
    { p with swEn := v.getLsbD 7, swPer := (v >>> 4).setWidth 3, swNeg := v.getLsbD 3, swShift := v.setWidth 3,
             swReload := true }
  | 2 => { p with period := (p.period &&& 0x700) ||| v.setWidth 11 }
  | _ =>
    { p with period := (p.period &&& 0x0FF) ||| (v.setWidth 11 <<< 8), len := if en then lengthOf v else p.len, seq := 0,
             env := { p.env with start := true } }

/-- $4015 write: the channel enables (62_apu.md R768). -/
def Apu.writeEnables (a : Apu) (v : Byte) : Apu :=
  let dmc :=
    if !v.getLsbD 4 then { a.dmc with remain := 0 } else if a.dmc.remain = 0 then a.dmc.restart else a.dmc
  { a with enP1 := v.getLsbD 0, enP2 := v.getLsbD 1, enTri := v.getLsbD 2, enNoi := v.getLsbD 3
           p1 := { a.p1 with len := if v.getLsbD 0 then a.p1.len else 0 }
           p2 := { a.p2 with len := if v.getLsbD 1 then a.p2.len else 0 }
           tri := { a.tri with len := if v.getLsbD 2 then a.tri.len else 0 }
           noi := { a.noi with len := if v.getLsbD 3 then a.noi.len else 0 }
           dmc := { dmc with irq := false } }

/-- $4017 write in CPU cycle `cycles`: the frame counter (62_apu.md R770). -/
def FrameCounter.write (f : FrameCounter) (cycles : Nat) (v : Byte) : FrameCounter :=
  { f with mode := v.getLsbD 7, inhibit := v.getLsbD 6, irq := f.irq && !v.getLsbD 6
           resetDelay := if cycles % 2 = 1 then 4 else 5 }

/-- `ApuWrite(a, v)` by the low byte of the address $40xx (62_apu.md R752 to R770). Addresses that name no register,
$4009 and $400D among them (R759), change nothing. -/
def Apu.write (a : Apu) (cycles : Nat) (reg : Nat) (v : Byte) : Apu :=
  match reg with
  | 0x00 | 0x01 | 0x02 | 0x03 => { a with p1 := a.p1.write a.enP1 reg v }
  | 0x04 | 0x05 | 0x06 | 0x07 => { a with p2 := a.p2.write a.enP2 (reg - 4) v }
  | 0x08 => { a with tri := { a.tri with ctrl := v.getLsbD 7, linLoad := v.setWidth 7 } }
  | 0x0A => { a with tri := { a.tri with period := (a.tri.period &&& 0x700) ||| v.setWidth 11 } }
  | 0x0B =>
    { a with tri := { a.tri with period := (a.tri.period &&& 0x0FF) ||| (v.setWidth 11 <<< 8)
                                 len := if a.enTri then lengthOf v else a.tri.len
                                 linReload := true } }
  | 0x0C => { a with noi := { a.noi with halt := v.getLsbD 5, constVol := v.getLsbD 4, vol := v.setWidth 4 } }
  | 0x0E => { a with noi := { a.noi with mode := v.getLsbD 7, perIdx := v.setWidth 4 } }
  | 0x0F =>
    { a with noi := { a.noi with len := if a.enNoi then lengthOf v else a.noi.len
                                 env := { a.noi.env with start := true } } }
  | 0x10 =>
    { a with dmc := { a.dmc with irqEn := v.getLsbD 7, loop := v.getLsbD 6, rateIdx := v.setWidth 4
                                 irq := a.dmc.irq && v.getLsbD 7 } }
  | 0x11 => { a with dmc := { a.dmc with level := v.setWidth 7 } }
  | 0x12 => { a with dmc := { a.dmc with startAddr := 0xC000 + (v.setWidth 16 <<< 6) } }
  | 0x13 => { a with dmc := { a.dmc with length := (v.setWidth 12 <<< 4) + 1 } }
  | 0x15 => a.writeEnables v
  | 0x17 => { a with fc := a.fc.write cycles v }
  | _ => a

/-- `ApuStatusRead()`: the value of $4015, bit 5 from `open_bus` (62_apu.md R769). -/
def Apu.status (a : Apu) (openBus : Byte) : Byte :=
  bitOf a.dmc.irq ++ bitOf a.fc.irq ++ bitOf (openBus.getLsbD 5) ++ bitOf (a.dmc.remain != 0) ++
    bitOf (a.noi.len != 0) ++ bitOf (a.tri.len != 0) ++ bitOf (a.p2.len != 0) ++ bitOf (a.p1.len != 0)

/-- The side effect of a $4015 read: the frame interrupt flag is cleared (62_apu.md R769). -/
def Apu.statusRead (a : Apu) : Apu := { a with fc := { a.fc with irq := false } }

end Sys2Proof.Machine
end

