-- ==== Sys2Proof/Machine/ApuStep.lean ====
section
/-! DEFINITION. The APU step of one CPU cycle: frame sequencer, timers, mixer and resampler (62_apu.md R777, R780 to R782,
R800 to R803). -/

namespace Sys2Proof.Machine

/-- The IRQ action of the frame sequencer (62_apu.md R781). -/
def Apu.frameIrq (a : Apu) : Apu := { a with fc := { a.fc with irq := a.fc.irq || !a.fc.inhibit } }

/-- Sets `fc_cycle`. -/
def Apu.setFrameCycle (a : Apu) (n : Nat) : Apu := { a with fc := { a.fc with cycle := n } }

/-- The action at the new value of `fc_cycle`: the table of 62_apu.md R780. -/
def Apu.sequencerAction (a : Apu) : Apu :=
  match a.fc.mode, a.fc.cycle with
  | _, 7457 => a.quarterFrame
  | _, 14913 => a.quarterFrame.halfFrame
  | _, 22371 => a.quarterFrame
  | false, 29828 => a.frameIrq
  | false, 29829 => a.quarterFrame.halfFrame.frameIrq
  | false, 29830 => a.frameIrq.setFrameCycle 0
  | true, 37281 => a.quarterFrame.halfFrame
  | true, 37282 => a.setFrameCycle 0
  | _, _ => a

/-- `fc_cycle + 1`, which stays in the range 0..37286 of 62_apu.md R751 (R780, 90_conflicts.md C12): $4017 writes that keep
restarting the delay of R782 hold it at 37286 (log entry 25). -/
def frameCycleNext (c : Nat) : Nat := if c < 37286 then c + 1 else 37286

/-- Step 1 of the APU step: the delayed reset of a $4017 write (62_apu.md R782), else the count and its action (R780). -/
def Apu.sequencer (a : Apu) : Apu :=
  let d := a.fc.resetDelay
  let a := { a with fc := { a.fc with resetDelay := d - 1 } }
  if d = 1 then
    let a := a.setFrameCycle 0
    if a.fc.mode then a.quarterFrame.halfFrame else a
  else (a.setFrameCycle (frameCycleNext a.fc.cycle)).sequencerAction

/-- Steps 2 and 3: the triangle timer every cycle, the other timers on odd cycles (62_apu.md R777, R750). -/
def Apu.timers (a : Apu) (cycles : Nat) : Apu :=
  let odd := cycles % 2 = 1
  { a with tri := a.tri.clock
           p1 := if odd then a.p1.clock else a.p1
           p2 := if odd then a.p2.clock else a.p2
           noi := if odd then a.noi.clock else a.noi
           dmc := if odd then a.dmc.clock else a.dmc }

/-- `s = floor(32767 mix)` of 62_apu.md R800 for the gated channel outputs. -/
def mixSample (p1 p2 t n d : Nat) : Nat :=
  let pm := p1 + p2
  let tm := 3 * t + 2 * n + d
  let dp := 50800 + 625 * pm
  let dt := 2432900 + 10000 * tm
  32767 * (597 * pm * dt + 16367 * tm * dp) / (dp * dt)

/-- `Mix()`: the sample of this cycle's outputs, each gated by its channel enable (62_apu.md R800, R801). DESIGN CHOICE,
log entry 29: a triangle whose `len` is 0 holds its last output, as R788 says; R785 says that a channel whose `len` is 0
outputs 0. -/
def Apu.mix (a : Apu) (c : Channels) : BitVec 16 :=
  BitVec.ofNat 16 (mixSample (if c.square1 then a.p1.out true else 0) (if c.square2 then a.p2.out false else 0)
    (if c.triangle then triangleOut a.tri.seq else 0) (if c.noise then a.noi.out else 0)
    (if c.dmc then a.dmc.level.toNat else 0))

/-- `AppendFrame`: a full buffer first loses its oldest frame (62_apu.md R803). -/
def appendFrame (capacity : Nat) (buf : List (BitVec 16 × BitVec 16)) (s : BitVec 16) :
    List (BitVec 16 × BitVec 16) :=
  (if buf.length ≥ capacity then buf.drop 1 else buf) ++ [(s, s)]

/-- Does the resampler emit a frame in this cycle (62_apu.md R802)? -/
def resamplerEmits (rate rsAcc : Nat) : Bool := rsAcc + 11 * rate ≥ Config.resamplerModulus

/-- `rs_acc` after step 4 (62_apu.md R802). -/
def resamplerNext (rate rsAcc : Nat) : Nat :=
  if resamplerEmits rate rsAcc then rsAcc + 11 * rate - Config.resamplerModulus else rsAcc + 11 * rate

/-- The AudioSampleBuffer after step 4 (62_apu.md R802, R803). -/
def resamplerBuffer (rate : Nat) (a : Apu) (c : Channels) (buf : List (BitVec 16 × BitVec 16)) :
    List (BitVec 16 × BitVec 16) :=
  if resamplerEmits rate a.rsAcc then appendFrame (Config.audioCapacity rate) buf (a.mix c) else buf

/-- Steps 1 to 3 of the APU step of CPU cycle `cycles` (62_apu.md R777). -/
def Apu.units (a : Apu) (cycles : Nat) : Apu := a.sequencer.timers cycles

end Sys2Proof.Machine
end

