-- ==== Sys2Proof/Machine/Ports.lean ====
section
/-! DEFINITION. The controller ports $4016 and $4017 (64_frame_driver_io.md R900 to R903). -/

namespace Sys2Proof.Machine

/-- `ControllerStrobe(v)`: a CPU write of $4016 (64_frame_driver_io.md R903). -/
def Ports.strobeWrite (p : Ports) (v : Byte) : Ports :=
  { p with strobe := v.getLsbD 0
           shreg0 := if v.getLsbD 0 then p.latched0 else p.shreg0
           shreg1 := if v.getLsbD 0 then p.latched1 else p.shreg1 }

/-- The bit that `ControllerRead(i)` returns, port 2 when `second` (64_frame_driver_io.md R903). -/
def Ports.readBit (p : Ports) (second : Bool) : Bool :=
  if p.strobe then (if second then p.latched1 else p.latched0).getLsbD 0
  else (if second then p.shreg1 else p.shreg0).getLsbD 0

/-- The ports after `ControllerRead(i)`: with the strobe low the port read shifts, 1 coming in (64_frame_driver_io.md
R903). -/
def Ports.shifted (p : Ports) (second : Bool) : Ports :=
  { p with shreg0 := if p.strobe || second then p.shreg0 else (p.shreg0 >>> 1) ||| 0x80
           shreg1 := if p.strobe || !second then p.shreg1 else (p.shreg1 >>> 1) ||| 0x80 }

/-- The byte of a port read: bits 7-5 from `open_bus`, bits 4-1 zero (64_frame_driver_io.md R903). -/
def Ports.readByte (p : Ports) (second : Bool) (openBus : Byte) : Byte :=
  (openBus &&& 0xE0) ||| (if p.readBit second then 1 else 0)

end Sys2Proof.Machine
end

