-- ==== Sys2Proof/Machine/Memory.lean ====
section
/-! DEFINITION. The operations over memories: lists of (address, value) pairs in one canonical form. An unlisted address
reads as 0, the power-on content that 70_reset_and_hazards.md R1000 gives every RAM (log entry 5). -/

namespace Sys2Proof

/-- The cell at address `a`. -/
def Cells.read {w : Nat} : Cells w → Nat → BitVec w
  | [], _ => 0
  | (k, v) :: rest, a => if k = a then v else Cells.read rest a

/-- Stores `v` at address `a`, keeping the canonical form: storing 0 removes the entry. -/
def Cells.write {w : Nat} : Cells w → Nat → BitVec w → Cells w
  | [], a, v => if v = 0 then [] else [(a, v)]
  | (k, x) :: rest, a, v =>
    if a < k then (if v = 0 then (k, x) :: rest else (a, v) :: (k, x) :: rest)
    else if a = k then (if v = 0 then rest else (k, v) :: rest)
    else (k, x) :: Cells.write rest a v

/-- The canonical form: addresses strictly rising, no entry equal to what an unlisted address reads as. -/
def Cells.wf {w : Nat} : Cells w → Bool
  | [] => true
  | (k, v) :: rest => v != 0 && rest.all (fun e => decide (k < e.1)) && Cells.wf rest

/-- The canonical form of a byte memory. -/
abbrev Memory.wf (m : Memory) : Bool := Cells.wf (w := 8) m

/-- Every listed address is below `n`. -/
def Cells.below {w : Nat} (m : Cells w) (n : Nat) : Bool := m.all fun e => decide (e.1 < n)

/-- The memory that holds the values `vs` from address `k` up. -/
def Cells.ofListFrom {w : Nat} : Nat → List (BitVec w) → Cells w
  | _, [] => []
  | k, v :: vs => if v = 0 then Cells.ofListFrom (k + 1) vs else (k, v) :: Cells.ofListFrom (k + 1) vs

/-- The memory that holds the values `vs` from address 0 up. -/
def Cells.ofList {w : Nat} (vs : List (BitVec w)) : Cells w := Cells.ofListFrom 0 vs

/-- The first `n` cells, in address order. -/
def Cells.toList {w : Nat} (m : Cells w) (n : Nat) : List (BitVec w) := (List.range n).map fun a => Cells.read m a

end Sys2Proof
end

