-- ==== Sys2Proof/Machine/Mapper.lean ====
section
/-! DEFINITION. The mapper bank: the address translation and registers of mappers 0, 1, 2, 3, 4 and 7
(63_cartridge_mappers.md R850 to R885). -/

namespace Sys2Proof.Machine

/-- The size of PRG ROM in bytes (63_cartridge_mappers.md R851). -/
def Image.prgSize (img : Image) : Nat := 16384 * img.prgCount.toNat

/-- The size of the CHR memory in bytes: CHR ROM, or 8 KB of CHR RAM (63_cartridge_mappers.md R855). -/
def Image.chrSize (img : Image) : Nat := if img.chrCount = 0 then 8192 else 8192 * img.chrCount.toNat

/-- The byte offset of offset `off` in bank `b` of size `s`, of a memory of `size` bytes: the bank number is reduced
modulo the number of banks, and a memory smaller than one bank mirrors inside it (63_cartridge_mappers.md R859). An
image that is not a whole number of 32 KB banks has the banks that fit (log entry 10). -/
def bankOffset (size s b off : Nat) : Nat := ((b % max 1 (size / s)) * s + off) % max 1 size

/-- The MMC1 PRG bank of 16 KB seen at $8000 (`upper` false) or $C000 (`upper` true): the table of
63_cartridge_mappers.md R863, with the SUROM outer bank. -/
def mmc1PrgBank (r : Mmc1) (prgSize : Nat) (upper : Bool) : Nat :=
  let outer := if prgSize = 524288 && r.chr0.getLsbD 4 then 16 else 0
  let b := (r.prg.setWidth 4).toNat
  match r.ctrl.getLsbD 3, r.ctrl.getLsbD 2 with
  | false, _ => outer + b / 2 * 2 + (if upper then 1 else 0)
  | true, false => if upper then outer + b else outer
  | true, true => if upper then outer + 15 else outer + b

/-- `m4.r[i]`. -/
def Mmc3.reg (r : Mmc3) (i : BitVec 3) : Byte := r.r[i.toFin]

/-- The MMC3 PRG bank of 8 KB seen in the window `w` (0 to 3 from $8000 up), of `n` banks: the table of
63_cartridge_mappers.md R871. -/
def mmc3PrgBank (r : Mmc3) (n : Nat) (w : Nat) : Nat :=
  let r6 := ((r.reg 6).setWidth 6).toNat
  let r7 := ((r.reg 7).setWidth 6).toNat
  match w with
  | 0 => if r.prgMode then n - 2 else r6
  | 1 => r7
  | 2 => if r.prgMode then r6 else n - 2
  | _ => n - 1

/-- The offset in PRG ROM that CPU address `a` in $8000-$FFFF selects. -/
def prgOffset (img : Image) (mp : Mapper) (a : Word) : Nat :=
  let a := a.toNat
  let size := img.prgSize
  match mp with
  | .nrom | .cnrom _ => (a - 0x8000) % max 1 size
  | .mmc1 r =>
    if a < 0xC000 then bankOffset size 16384 (mmc1PrgBank r size false) (a - 0x8000)
    else bankOffset size 16384 (mmc1PrgBank r size true) (a - 0xC000)
  | .uxrom bank =>
    if a < 0xC000 then bankOffset size 16384 bank.toNat (a - 0x8000)
    else bankOffset size 16384 (img.prgCount.toNat - 1) (a - 0xC000)
  | .mmc3 r =>
    bankOffset size 8192 (mmc3PrgBank r (2 * img.prgCount.toNat) ((a - 0x8000) / 8192)) (a % 8192)
  | .axrom reg => bankOffset size 32768 (reg.setWidth 3).toNat (a - 0x8000)

/-- May PRG RAM be read (63_cartridge_mappers.md R858, R865, R873)? -/
def Mapper.ramReadable : Mapper → Bool
  | .mmc1 r => !r.prg.getLsbD 4
  | .mmc3 r => r.ramEn
  | .nrom | .uxrom _ | .cnrom _ | .axrom _ => true

/-- May PRG RAM be written (63_cartridge_mappers.md R858, R865, R873)? -/
def Mapper.ramWritable : Mapper → Bool
  | .mmc1 r => !r.prg.getLsbD 4
  | .mmc3 r => r.ramEn && !r.ramWp
  | .nrom | .uxrom _ | .cnrom _ | .axrom _ => true

/-- `MapperCpuRead(a)` for `a` in $4020-$FFFF: `none` where nothing drives the bus, so that the read returns open bus
(63_cartridge_mappers.md R858). With no cartridge image nothing drives it (log entry 4). -/
def mapperCpuRead (image : Option Image) (cart : Cart) (mp : Mapper) (a : Word) : Option Byte :=
  match image with
  | none => none
  | some img =>
    if a < 0x6000 then none
    else if a < 0x8000 then
      if mp.ramReadable then some (Cells.read cart.prgRam (a.toNat - 0x6000)) else none
    else some (Cells.read img.prgRom (prgOffset img mp a))

/-- CPU cycle number `cycles` as a 64-bit time stamp (63_cartridge_mappers.md R861, R881; log entry 6). -/
def stampOf (cycles : Nat) : BitVec 64 := BitVec.ofNat 64 cycles

/-- A write to the MMC1 serial port in CPU cycle `cycles`; `last_write + 1` is reckoned in 64 bits
(63_cartridge_mappers.md R861). -/
def Mmc1.write (r : Mmc1) (cycles : Nat) (a : Word) (v : Byte) : Mmc1 :=
  if stampOf cycles = r.lastWrite + 1 then r
  else if v.getLsbD 7 then { r with lastWrite := stampOf cycles, shift := 0, count := 0, ctrl := r.ctrl ||| 0x0C }
  else
    let sh := r.shift ||| ((v &&& 1).setWidth 5 <<< r.count)
    if r.count < 4 then { r with lastWrite := stampOf cycles, shift := sh, count := r.count + 1 }
    else
      let r := { r with lastWrite := stampOf cycles, shift := 0, count := 0 }
      match a.getLsbD 14, a.getLsbD 13 with
      | false, false => { r with ctrl := sh }
      | false, true => { r with chr0 := sh }
      | true, false => { r with chr1 := sh }
      | true, true => { r with prg := sh }

/-- A write to an MMC3 register: the table of 63_cartridge_mappers.md R870. -/
def Mmc3.write (r : Mmc3) (a : Word) (v : Byte) : Mmc3 :=
  match a.getLsbD 14, a.getLsbD 13, a.getLsbD 0 with
  | false, false, false => { r with sel := v.setWidth 3, prgMode := v.getLsbD 6, chrInv := v.getLsbD 7 }
  | false, false, true => { r with r := r.r.set r.sel.toFin v }
  | false, true, false => { r with mirror := v.getLsbD 0 }
  | false, true, true => { r with ramEn := v.getLsbD 7, ramWp := v.getLsbD 6 }
  | true, false, false => { r with latch := v }
  | true, false, true => { r with counter := 0, reload := true }
  | true, true, false => { r with irqEn := false, irq := false }
  | true, true, true => { r with irqEn := true }

/-- A write of `v` to $8000-$FFFF, as the mapper decodes it. -/
def Mapper.writeRegister (mp : Mapper) (cycles : Nat) (a : Word) (v : Byte) : Mapper :=
  match mp with
  | .nrom => .nrom
  | .mmc1 r => .mmc1 (r.write cycles a v)
  | .uxrom _ => .uxrom v
  | .cnrom _ => .cnrom v
  | .mmc3 r => .mmc3 (r.write a v)
  | .axrom _ => .axrom v

/-- `MapperCpuWrite(a, v)` for `a` in $4020-$FFFF: the PRG RAM and the mapper registers after it (63_cartridge_mappers.md
R858, R860 to R870). It never changes PRG ROM (R883). With no cartridge image it has no effect (log entry 4). -/
def mapperCpuWrite (image : Option Image) (cart : Cart) (mp : Mapper) (cycles : Nat) (a : Word) (v : Byte) :
    Cart × Mapper :=
  match image with
  | none => (cart, mp)
  | some _ =>
    if a < 0x6000 then (cart, mp)
    else if a < 0x8000 then
      (if mp.ramWritable then { cart with prgRam := Cells.write cart.prgRam (a.toNat - 0x6000) v } else cart, mp)
    else (cart, mp.writeRegister cycles a v)

/-- The MMC3 CHR bank of 1 KB for the slot `s` (63_cartridge_mappers.md R872). -/
def mmc3ChrBank (r : Mmc3) (s : Nat) : Nat :=
  match s with
  | 0 => (r.reg 0 &&& 0xFE).toNat
  | 1 => (r.reg 0 ||| 1).toNat
  | 2 => (r.reg 1 &&& 0xFE).toNat
  | 3 => (r.reg 1 ||| 1).toNat
  | 4 => (r.reg 2).toNat
  | 5 => (r.reg 3).toNat
  | 6 => (r.reg 4).toNat
  | _ => (r.reg 5).toNat

/-- `ChrOffset(a)` of a PPU address below $2000, for a CHR memory of `size` bytes (63_cartridge_mappers.md R860, R864,
R866 to R868, R872); `chrRead` and `chrWrite` reduce it modulo the size (R855). -/
def chrOffset (mp : Mapper) (size : Nat) (a : PpuAddr) : Nat :=
  let a := a.toNat
  match mp with
  | .nrom | .uxrom _ | .axrom _ => a
  | .mmc1 r =>
    if r.ctrl.getLsbD 4 then
      (if a < 0x1000 then r.chr0.toNat else r.chr1.toNat) * 4096 + a % 4096
    else (r.chr0 &&& 0x1E).toNat * 4096 + a
  | .cnrom chr => (chr.toNat % max 1 (size / 8192)) * 8192 + a
  | .mmc3 r => mmc3ChrBank r ((a / 1024) ^^^ (if r.chrInv then 4 else 0)) * 1024 + a % 1024

/-- `MapperChrRead(a)` (63_cartridge_mappers.md R855). With no cartridge image the 8 KB of CHR RAM are read (log
entry 4). -/
def chrRead (image : Option Image) (cart : Cart) (mp : Mapper) (a : PpuAddr) : Byte :=
  match image with
  | none => Cells.read cart.chrRam a.toNat
  | some img =>
    let off := chrOffset mp img.chrSize a % max 1 img.chrSize
    if img.chrCount = 0 then Cells.read cart.chrRam off else Cells.read img.chrRom off

/-- `MapperChrWrite(a, v)`: CHR RAM after it; a write to CHR ROM has no effect (63_cartridge_mappers.md R855). -/
def chrWrite (image : Option Image) (cart : Cart) (mp : Mapper) (a : PpuAddr) (v : Byte) : Cart :=
  match image with
  | none => { cart with chrRam := Cells.write cart.chrRam a.toNat v }
  | some img =>
    if img.chrCount = 0 then
      { cart with chrRam := Cells.write cart.chrRam (chrOffset mp img.chrSize a % max 1 img.chrSize) v }
    else cart

/-- The nametable mirroring modes (63_cartridge_mappers.md R856). -/
inductive Mirroring where
  | horizontal | vertical | singleLower | singleUpper | fourScreen
  deriving DecidableEq, Repr

/-- The physical 1 KB page of the logical nametable `n` (61_ppu.md R655, 63_cartridge_mappers.md R856). -/
def Mirroring.page (m : Mirroring) (n : Nat) : Nat :=
  match m with
  | .horizontal => n / 2
  | .vertical => n % 2
  | .singleLower => 0
  | .singleUpper => 1
  | .fourScreen => n

/-- `MapperMirroring()` (63_cartridge_mappers.md R856, R862, R868, R873). With no cartridge image: horizontal (log
entry 4). -/
def mapperMirroring (image : Option Image) (mp : Mapper) : Mirroring :=
  match image with
  | none => .horizontal
  | some img =>
    if img.fourScreen then .fourScreen
    else match mp with
    | .mmc1 r =>
      match r.ctrl.getLsbD 1, r.ctrl.getLsbD 0 with
      | false, false => .singleLower
      | false, true => .singleUpper
      | true, false => .vertical
      | true, true => .horizontal
    | .mmc3 r => if r.mirror then .horizontal else .vertical
    | .axrom reg => if reg.getLsbD 4 then .singleUpper else .singleLower
    | .nrom | .uxrom _ | .cnrom _ => if img.vertical then .vertical else .horizontal

/-- One clock of the MMC3 scanline counter (63_cartridge_mappers.md R880). -/
def Mmc3.clockCounter (r : Mmc3) : Mmc3 :=
  let counter := if r.counter = 0 || r.reload then r.latch else r.counter - 1
  { r with counter := counter, reload := false, irq := r.irq || (counter == 0 && r.irqEn) }

/-- `MapperPpuAddr(a)` in CPU cycle `cycles`; the difference of the time stamps is reckoned in 64 bits
(63_cartridge_mappers.md R881, 00_scope.md R11). -/
def Mapper.ppuAddr (mp : Mapper) (cycles : Nat) (a : PpuAddr) : Mapper :=
  match mp with
  | .mmc3 r =>
    if a.getLsbD 12 then
      let r := if 3 ≤ stampOf cycles - r.a12LastHigh then r.clockCounter else r
      .mmc3 { r with a12LastHigh := stampOf cycles }
    else .mmc3 r
  | .nrom => .nrom
  | .mmc1 r => .mmc1 r
  | .uxrom b => .uxrom b
  | .cnrom c => .cnrom c
  | .axrom r => .axrom r

/-- `MapperIrq()` (63_cartridge_mappers.md R850, R880). -/
def Mapper.irq : Mapper → Bool
  | .mmc3 r => r.irq
  | .nrom | .mmc1 _ | .uxrom _ | .cnrom _ | .axrom _ => false

/-- The mapper variant of an image with its registers at their power-on values (63_cartridge_mappers.md R861, R866 to
R868, R870). An id outside 1, 2, 3, 4, 7 is mapper 0: `loadROM` accepts no other (R853, R885). -/
def mapperPowerOn (img : Image) : Mapper :=
  match img.mapperId.toNat with
  | 1 => .mmc1 { shift := 0, count := 0, lastWrite := 0, ctrl := 0x0C, chr0 := 0, chr1 := 0, prg := 0 }
  | 2 => .uxrom 0
  | 3 => .cnrom 0
  | 4 => .mmc3 { sel := 0, prgMode := false, chrInv := false, r := (Vector.replicate 8 0).set 7 1,
                 mirror := !img.vertical && !img.fourScreen, ramEn := true, ramWp := false, latch := 0, counter := 0, reload := false,
                 irqEn := false, irq := false, a12LastHigh := 0 }
  | 7 => .axrom 0
  | _ => .nrom

end Sys2Proof.Machine
end

