-- ==== Sys2Proof/Machine/PpuBus.lean ====
section
/-! DEFINITION. The PPU address space (61_ppu.md R652 to R655, R660, R661). -/

namespace Sys2Proof.Machine

/-- What the PPU reaches over its bus besides its own registers: the cartridge image, the cartridge RAMs, its memories,
and the time that `MapperPpuAddr` is told (61_ppu.md R661). A dot changes none of these. -/
structure PpuWorld where
  image  : Option Image
  cart   : Cart
  vmem   : VideoMem
  cycles : Nat

/-- The world the PPU sees in a state. -/
def State.ppuWorld (s : State) : PpuWorld :=
  { image := s.image, cart := s.mach.cart, vmem := s.mach.vmem, cycles := s.mach.hidden.cycles }

/-- `PalIndex(a)`: the palette cell of an address, $10, $14, $18 and $1C being the cells of $00, $04, $08 and $0C
(61_ppu.md R653). -/
def palIndex (a : Nat) : Nat :=
  let i := a % 32
  if i % 4 = 0 then i % 16 else i

/-- A palette entry as it is read: ANDed with $30 in greyscale (61_ppu.md R653). -/
def paletteRead (vmem : VideoMem) (mask : Byte) (a : Nat) : BitVec 6 :=
  let c := Cells.read vmem.palette (palIndex a)
  if mask.getLsbD 0 then c &&& 0x30 else c

/-- Stores the low 6 bits of `val` in a palette cell (61_ppu.md R653). -/
def paletteWrite (vmem : VideoMem) (a : Nat) (val : Byte) : VideoMem :=
  { vmem with palette := Cells.write vmem.palette (palIndex a) (val.setWidth 6) }

/-- The physical nametable page and the offset in it of a PPU address in $2000-$3FFF, the $3000 mirror folded down
(61_ppu.md R655). -/
def ntPage (image : Option Image) (mp : Mapper) (a : PpuAddr) : Nat × Nat :=
  ((mapperMirroring image mp).page (a.toNat / 1024 % 4), a.toNat % 1024)

/-- `NtRead(a & $2FFF)` (61_ppu.md R655; pages 2 and 3: 63_cartridge_mappers.md R857). -/
def ntRead (w : PpuWorld) (mp : Mapper) (a : PpuAddr) : Byte :=
  let (page, off) := ntPage w.image mp a
  if page < 2 then Cells.read w.vmem.ciram (page * 1024 + off)
  else Cells.read w.cart.cartVram ((page - 2) * 1024 + off)

/-- `NtWrite(a & $2FFF, val)`: the nametable memories after it. -/
def ntWrite (w : PpuWorld) (mp : Mapper) (a : PpuAddr) (val : Byte) : VideoMem × Cart :=
  let (page, off) := ntPage w.image mp a
  if page < 2 then ({ w.vmem with ciram := Cells.write w.vmem.ciram (page * 1024 + off) val }, w.cart)
  else (w.vmem, { w.cart with cartVram := Cells.write w.cart.cartVram ((page - 2) * 1024 + off) val })

/-- The byte that `PpuRead(a)` returns, through the decode of 61_ppu.md R660 (the report to the mapper is
`Mapper.ppuAddr`). -/
def ppuPeek (w : PpuWorld) (mp : Mapper) (mask : Byte) (a : PpuAddr) : Byte :=
  if a < 0x2000 then chrRead w.image w.cart mp a
  else if a < 0x3F00 then ntRead w mp a
  else (paletteRead w.vmem mask a.toNat).setWidth 8

/-- The memories after `PpuWrite(a, val)` (61_ppu.md R660). -/
def ppuPoke (w : PpuWorld) (mp : Mapper) (a : PpuAddr) (val : Byte) : VideoMem × Cart :=
  if a < 0x2000 then (w.vmem, chrWrite w.image w.cart mp a val)
  else if a < 0x3F00 then ntWrite w mp a val
  else (paletteWrite w.vmem a.toNat val, w.cart)

end Sys2Proof.Machine
end

