-- ==== Sys2Proof/Machine/PpuRegs.lean ====
section
/-! DEFINITION. The CPU-visible PPU registers $2000-$2007 (61_ppu.md R656, R670 to R680, R714). -/

namespace Sys2Proof.Machine

/-- "Rendering enabled" (61_ppu.md R656). -/
def Ppu.renderingEnabled (p : Ppu) : Bool := p.mask.getLsbD 3 || p.mask.getLsbD 4

/-- Is the line one of 0-239 and 261? -/
def Ppu.renderLine (p : Ppu) : Bool := p.scanline < 240 || p.scanline == 261

/-- "Rendering active" (61_ppu.md R656). -/
def Ppu.renderingActive (p : Ppu) : Bool := p.renderingEnabled && p.renderLine

/-- The NMI output (61_ppu.md R703). -/
def Ppu.nmiOut (p : Ppu) : Bool := p.vblankFlag && p.ctrl.getLsbD 7

/-- Replaces the bits `lo .. lo + k - 1` of `t` or `v` by `f`. -/
def setField (r : BitVec 15) (lo k : Nat) (f : BitVec 15) : BitVec 15 :=
  let m : BitVec 15 := (BitVec.ofNat 15 (2 ^ k - 1)) <<< lo
  (r &&& ~~~m) ||| ((f <<< lo) &&& m)

/-- `CoarseXInc()` (61_ppu.md R702). -/
def coarseXInc (v : BitVec 15) : BitVec 15 :=
  if v &&& 0x1F = 31 then (v &&& ~~~0x1F#15) ^^^ 0x0400 else v + 1

/-- `YInc()` (61_ppu.md R702). -/
def yInc (v : BitVec 15) : BitVec 15 :=
  if v >>> 12 < 7 then v + 0x1000
  else
    let v := v &&& 0x0FFF
    let y := (v >>> 5) &&& 0x1F
    if y = 29 then (v &&& ~~~0x03E0#15) ^^^ 0x0800
    else if y = 31 then v &&& ~~~0x03E0#15
    else v + 0x0020

/-- The 14-bit PPU address in `v`. -/
def Ppu.vAddr (p : Ppu) : PpuAddr := p.v.setWidth 14

/-- `VramIncrement()` (61_ppu.md R714), with its report to the mapper. -/
def vramIncrement (p : Ppu) (mp : Mapper) (cycles : Nat) : Ppu × Mapper :=
  if p.renderingActive then ({ p with v := yInc (coarseXInc p.v) }, mp)
  else
    let p := { p with v := p.v + (if p.ctrl.getLsbD 2 then 32 else 1) }
    (p, mp.ppuAddr cycles p.vAddr)

/-- The grid position after (line, dot), without the skipped dot of an odd frame (61_ppu.md R690). -/
def nextDot (pos : Nat × Nat) : Nat × Nat :=
  if pos.2 < 340 then (pos.1, pos.2 + 1) else if pos.1 < 261 then (pos.1 + 1, 0) else (0, 0)

/-- Will the PPU phase of this CPU cycle process dot (241,1) (61_ppu.md R672, R694)? -/
def Ppu.vblankInCycle (p : Ppu) : Bool :=
  let d0 := (p.scanline, p.dot)
  let d1 := nextDot d0
  d0 == (241, 1) || d1 == (241, 1) || nextDot d1 == (241, 1)

/-- $2002 as it is read (61_ppu.md R672). -/
def Ppu.status (p : Ppu) : Byte :=
  bitOf p.vblankFlag ++ bitOf p.spr0Hit ++ bitOf p.sprOverflow ++ p.ioLatch.setWidth 5

/-- `PpuRegRead(r)`: the value read, the PPU and the mapper after it (61_ppu.md R670 to R678, R680). -/
def ppuRegRead (w : PpuWorld) (r : BitVec 3) (p : Ppu) (mp : Mapper) : Byte × Ppu × Mapper :=
  match r.toNat with
  | 2 =>
    (p.status, { p with suppressVbl := p.suppressVbl || p.vblankInCycle, vblankFlag := false, w := false,
                        ioLatch := p.status }, mp)
  | 4 =>
    let result := Cells.read w.vmem.oam p.oamaddr.toNat
    (result, { p with ioLatch := result }, mp)
  | 7 =>
    let a := p.vAddr
    let byte := ppuPeek w mp p.mask a
    let result := if a < 0x3F00 then p.readBuffer else (p.ioLatch &&& 0xC0) ||| (byte &&& 0x3F)
    let buffer := if a < 0x3F00 then byte else ntRead w (mp.ppuAddr w.cycles a) a
    let (p, mp) := vramIncrement { p with readBuffer := buffer, ioLatch := result } (mp.ppuAddr w.cycles a) w.cycles
    (result, p, mp)
  | _ => (p.ioLatch, p, mp)

/-- What a register write can change: the PPU, its memories, the cartridge RAMs and the mapper. -/
structure PpuWriteOut where
  ppu    : Ppu
  vmem   : VideoMem
  cart   : Cart
  mapper : Mapper

/-- The byte stored at OAM index `i` by a write of `val`: the attribute bytes lack bits 4-2 (61_ppu.md R654). -/
def oamByte (i val : Byte) : Byte := if i &&& 3 = 2 then val &&& 0xE3 else val

/-- `PpuRegWrite(r, val)` (61_ppu.md R670 to R680). Every write first sets `io_latch`; during warm-up $2000, $2001, $2005
and $2006 do nothing more (R693). -/
def ppuRegWrite (w : PpuWorld) (r : BitVec 3) (val : Byte) (p : Ppu) (mp : Mapper) : PpuWriteOut :=
  let p := { p with ioLatch := val }
  let same : PpuWriteOut := { ppu := p, vmem := w.vmem, cart := w.cart, mapper := mp }
  match r.toNat with
  | 0 =>
    if p.warmup then same
    else { same with ppu := { p with ctrl := val, t := setField p.t 10 2 (val.setWidth 15) } }
  | 1 => if p.warmup then same else { same with ppu := { p with mask := val } }
  | 3 => { same with ppu := { p with oamaddr := val } }
  | 4 =>
    if p.renderingActive then { same with ppu := { p with oamaddr := p.oamaddr + 4 } }
    else
      { same with
        ppu := { p with oamaddr := p.oamaddr + 1 }
        vmem := { w.vmem with oam := Cells.write w.vmem.oam p.oamaddr.toNat (oamByte p.oamaddr val) } }
  | 5 =>
    if p.warmup then same
    else if p.w then
      { same with ppu := { p with t := setField (setField p.t 12 3 (val.setWidth 15)) 5 5 ((val >>> 3).setWidth 15),
                                  w := false } }
    else
      { same with ppu := { p with t := setField p.t 0 5 ((val >>> 3).setWidth 15), fineX := val.setWidth 3,
                                  w := true } }
  | 6 =>
    if p.warmup then same
    else if p.w then
      let p := { p with t := setField p.t 0 8 (val.setWidth 15), v := setField p.t 0 8 (val.setWidth 15), w := false }
      { same with ppu := p, mapper := mp.ppuAddr w.cycles p.vAddr }
    else { same with ppu := { p with t := setField p.t 8 7 ((val &&& 0x3F).setWidth 15), w := true } }
  | 7 =>
    let a := p.vAddr
    let active := p.renderingActive
    let mems := if active then (w.vmem, w.cart) else ppuPoke w mp a val
    let (p, mp) := vramIncrement p (if active then mp else mp.ppuAddr w.cycles a) w.cycles
    { ppu := p, vmem := mems.1, cart := mems.2, mapper := mp }
  | _ => same

end Sys2Proof.Machine
end

