-- ==== Sys2Proof/Machine/Bus.lean ====
section
/-! DEFINITION. The CPU bus: the address decode of 20_memory.md R110 and the bus phase of one CPU cycle, without the
phases that follow it (`endCycle`). -/

namespace Sys2Proof.Machine

/-- The device rows of the CPU address map, in the order of the table of 20_memory.md R110. -/
inductive Region where
  | workRam (i : Nat)
  | ppuReg (r : BitVec 3)
  | apuChannel (r : Nat)
  | oamDma
  | apuStatus
  | port1
  | port2
  | testRegs
  | cartridge
  deriving DecidableEq, Repr

/-- The CPU address decode (20_memory.md R110). -/
def region (a : Word) : Region :=
  if a < 0x2000 then .workRam (a &&& 0x07FF).toNat
  else if a < 0x4000 then .ppuReg (a.setWidth 3)
  else if a < 0x4014 then .apuChannel (a.toNat - 0x4000)
  else if a = 0x4014 then .oamDma
  else if a = 0x4015 then .apuStatus
  else if a = 0x4016 then .port1
  else if a = 0x4017 then .port2
  else if a < 0x4020 then .testRegs
  else .cartridge

/-- A read of CPU address `a`, which lies in the row `r` of the map: the value it delivers, and the state after its side
effects and the update of `open_bus`, which a read of $4015 does not make (20_memory.md R110 to R113). DESIGN CHOICE, log
entry 28: a read of $4017 is controller port 2, as R110 and 64_frame_driver_io.md R903 say; 62_apu.md R752 says that it
returns `open_bus`. -/
def readRegion (r : Region) (a : Word) (s : State) : Byte × State :=
  match r with
  | .workRam i =>
    let v := Cells.read s.mach.ram i
    (v, { s with mach := { s.mach with openBus := v } })
  | .ppuReg r =>
    let out := ppuRegRead s.ppuWorld r s.mach.ppu s.mach.mapper
    (out.1, { s with mach := { s.mach with openBus := out.1, ppu := out.2.1, mapper := out.2.2 } })
  | .apuStatus => (s.mach.apu.status s.mach.openBus, { s with mach := { s.mach with apu := s.mach.apu.statusRead } })
  | .port1 =>
    let v := s.mach.ports.readByte false s.mach.openBus
    (v, { s with mach := { s.mach with openBus := v, ports := s.mach.ports.shifted false } })
  | .port2 =>
    let v := s.mach.ports.readByte true s.mach.openBus
    (v, { s with mach := { s.mach with openBus := v, ports := s.mach.ports.shifted true } })
  | .cartridge =>
    let v := (mapperCpuRead s.image s.mach.cart s.mach.mapper a).getD s.mach.openBus
    (v, { s with mach := { s.mach with openBus := v } })
  | .apuChannel _ | .oamDma | .testRegs => (s.mach.openBus, s)

/-- A bus read of CPU address `a` (20_memory.md R110). -/
def busRead (a : Word) (s : State) : Byte × State := readRegion (region a) a s

/-- The state after a write of `v` to CPU address `a`, which lies in the row `r` of the map; `open_bus` takes the value
written (20_memory.md R110, R112, R115). DESIGN CHOICE, log entry 26: of several $4014 writes in one instruction the LAST
gives the page, as R115, the rule that defines the DMA, says; 70_reset_and_hazards.md R1021 says the first. -/
def writeRegion (r : Region) (a : Word) (v : Byte) (s : State) : State :=
  match r with
  | .workRam i => { s with mach := { s.mach with openBus := v, ram := Cells.write s.mach.ram i v } }
  | .ppuReg r =>
    let out := ppuRegWrite s.ppuWorld r v s.mach.ppu s.mach.mapper
    { s with mach := { s.mach with openBus := v, ppu := out.ppu, vmem := out.vmem, cart := out.cart,
                                   mapper := out.mapper } }
  | .apuChannel r =>
    { s with mach := { s.mach with openBus := v, apu := s.mach.apu.write s.mach.hidden.cycles r v } }
  | .oamDma => { s with mach := { s.mach with openBus := v, dmaPage := v, dmaReq := true } }
  | .apuStatus =>
    { s with mach := { s.mach with openBus := v, apu := s.mach.apu.write s.mach.hidden.cycles 0x15 v } }
  | .port1 => { s with mach := { s.mach with openBus := v, ports := s.mach.ports.strobeWrite v } }
  | .port2 =>
    { s with mach := { s.mach with openBus := v, apu := s.mach.apu.write s.mach.hidden.cycles 0x17 v } }
  | .testRegs => { s with mach := { s.mach with openBus := v } }
  | .cartridge =>
    let out := mapperCpuWrite s.image s.mach.cart s.mach.mapper s.mach.hidden.cycles a v
    { s with mach := { s.mach with openBus := v, cart := out.1, mapper := out.2 } }

/-- A bus write of `v` to CPU address `a` (20_memory.md R110). -/
def busWrite (a : Word) (v : Byte) (s : State) : State := writeRegion (region a) a v s

/-- The byte a read of `a` would deliver now, with no cycle and no side effect: how the model states what memory holds. -/
def peek (a : Word) (s : State) : Byte := (busRead a s).1

end Sys2Proof.Machine
end

