-- ==== Sys2Proof/Machine/PpuDot.lean ====
section
/-! DEFINITION. One PPU dot: the grid, the status flags, background and sprite rendering, the pixel
(61_ppu.md R650, R690 to R713). -/

namespace Sys2Proof.Machine

/-! ## Background -/

/-- `NtAddr()` (61_ppu.md R701). -/
def Ppu.ntAddr (p : Ppu) : PpuAddr := 0x2000 ||| (p.vAddr &&& 0x0FFF)

/-- `AtAddr()` (61_ppu.md R701). -/
def Ppu.atAddr (p : Ppu) : PpuAddr :=
  0x23C0 ||| (p.vAddr &&& 0x0C00) ||| ((p.vAddr >>> 4) &&& 0x38) ||| ((p.vAddr >>> 2) &&& 0x07)

/-- `AtBits(b)` (61_ppu.md R701). -/
def Ppu.atBits (p : Ppu) (b : Byte) : BitVec 2 :=
  (b >>> (((p.v >>> 4) &&& 4) ||| (p.v &&& 2)).toNat).setWidth 2

/-- `PatAddr()` (61_ppu.md R701). -/
def Ppu.patAddr (p : Ppu) : PpuAddr :=
  (if p.ctrl.getLsbD 4 then 0x1000 else 0) ||| (p.ntLatch.setWidth 14 <<< 4) ||| (p.v >>> 12).setWidth 14

/-- The shift of the background shifters at dots 2-257 and 322-337 (61_ppu.md R704, 1). -/
def bgShift (p : Ppu) : Ppu :=
  if (2 ≤ p.dot && p.dot ≤ 257) || (322 ≤ p.dot && p.dot ≤ 337) then
    { p with bgPatLo := p.bgPatLo <<< 1, bgPatHi := p.bgPatHi <<< 1, bgAtLo := p.bgAtLo <<< 1,
             bgAtHi := p.bgAtHi <<< 1 }
  else p

/-- The reload of the shifters' low bytes at dots 9, 17, ..., 257, 329 and 337 (61_ppu.md R704, 2). -/
def bgReload (p : Ppu) : Ppu :=
  if p.dot % 8 = 1 && ((9 ≤ p.dot && p.dot ≤ 257) || p.dot == 329 || p.dot == 337) then
    { p with bgPatLo := (p.bgPatLo &&& 0xFF00) ||| p.patLoLatch.setWidth 16
             bgPatHi := (p.bgPatHi &&& 0xFF00) ||| p.patHiLatch.setWidth 16
             bgAtLo := (p.bgAtLo &&& 0xFF00) ||| (if p.atLatch.getLsbD 0 then 0xFF else 0)
             bgAtHi := (p.bgAtHi &&& 0xFF00) ||| (if p.atLatch.getLsbD 1 then 0xFF else 0) }
  else p

/-- Is the dot one of those that fetch background tiles, 1-256 and 321-336 (61_ppu.md R700)? -/
def Ppu.tileDot (p : Ppu) : Bool := (1 ≤ p.dot && p.dot ≤ 256) || (321 ≤ p.dot && p.dot ≤ 336)

/-- The background fetch of this dot, with `CoarseXInc` after the last fetch of a tile (61_ppu.md R700, R702). -/
def bgFetch (w : PpuWorld) (p : Ppu) (mp : Mapper) : Ppu × Mapper :=
  if p.tileDot then
    match (p.dot - 1) % 8 with
    | 1 => ({ p with ntLatch := ppuPeek w mp p.mask p.ntAddr }, mp.ppuAddr w.cycles p.ntAddr)
    | 3 => ({ p with atLatch := p.atBits (ppuPeek w mp p.mask p.atAddr) }, mp.ppuAddr w.cycles p.atAddr)
    | 5 => ({ p with patLoLatch := ppuPeek w mp p.mask p.patAddr }, mp.ppuAddr w.cycles p.patAddr)
    | 7 =>
      ({ p with patHiLatch := ppuPeek w mp p.mask (p.patAddr + 8), v := coarseXInc p.v },
        mp.ppuAddr w.cycles (p.patAddr + 8))
    | _ => (p, mp)
  else if p.dot = 338 || p.dot = 340 then (p, mp.ppuAddr w.cycles p.ntAddr)
  else (p, mp)

/-- The other scroll updates: `YInc` at dot 256, the horizontal copy at dot 257, the vertical copy at dots 280-304 of
line 261 (61_ppu.md R702). -/
def scrollUpdate (p : Ppu) : Ppu :=
  if p.dot = 256 then { p with v := yInc p.v }
  else if p.dot = 257 then { p with v := (p.v &&& ~~~0x041F#15) ||| (p.t &&& 0x041F) }
  else if p.scanline = 261 && 280 ≤ p.dot && p.dot ≤ 304 then
    { p with v := (p.v &&& ~~~0x7BE0#15) ||| (p.t &&& 0x7BE0) }
  else p

/-- Two bits as a number, `h` the high one. -/
def bits2 (h l : Bool) : BitVec 2 := bitOf h ++ bitOf l

/-- The background pixel at column `x`: 4 bits, 0 transparent (61_ppu.md R705). -/
def Ppu.bgPixel (p : Ppu) (x : Nat) : BitVec 4 :=
  let b := 15 - p.fineX.toNat
  let pix := bits2 (p.bgPatHi.getLsbD b) (p.bgPatLo.getLsbD b)
  if p.mask.getLsbD 3 && (8 ≤ x || p.mask.getLsbD 1) && pix != 0 then
    bits2 (p.bgAtHi.getLsbD b) (p.bgAtLo.getLsbD b) ++ pix
  else 0

/-! ## Sprites -/

/-- The sprite height `h` (61_ppu.md R706). -/
def Ppu.spriteHeight (p : Ppu) : Nat := if p.ctrl.getLsbD 5 then 16 else 8

/-- `InRange(y)` for line `l` (61_ppu.md R706). -/
def inRange (l h : Nat) (y : Byte) : Bool := y.toNat ≤ l && l < y.toNat + h

/-- The first search of 61_ppu.md R706: the sprites from `n` on that are in range, at most `room` of them, and the `n` the
search stops at. `fuel` counts the sprites left. -/
def findSprites (oam : Memory) (l h : Nat) : Nat → Nat → Nat → List Nat × Nat
  | 0, n, _ => ([], n)
  | _ + 1, n, 0 => ([], n)
  | fuel + 1, n, room + 1 =>
    if inRange l h (Cells.read oam (4 * n)) then
      let (found, stop) := findSprites oam l h fuel (n + 1) room
      (n :: found, stop)
    else findSprites oam l h fuel (n + 1) (room + 1)

/-- The overflow search with the hardware bug, from sprite `n` and byte `m` on (61_ppu.md R706). -/
def overflowSearch (oam : Memory) (l h : Nat) : Nat → Nat → Nat → Bool
  | 0, _, _ => false
  | fuel + 1, n, m =>
    inRange l h (Cells.read oam (4 * n + m)) || overflowSearch oam l h fuel (n + 1) ((m + 1) % 4)

/-- Sprite evaluation at dot 256, one atomic step (61_ppu.md R706). Line 261 only clears (log entry 9). -/
def spriteEvaluation (oam : Memory) (p : Ppu) : Ppu :=
  if p.dot = 256 then
    if p.scanline < 240 then
      let h := p.spriteHeight
      let (found, stop) := findSprites oam p.scanline h 64 0 8
      { p with
        secOam := Vector.ofFn fun j : Fin 32 =>
          match found[j.val / 4]? with
          | some n => Cells.read oam (4 * n + j.val % 4)
          | none => 0xFF
        sprCountNext := found.length
        spr0Next := found.head? == some 0
        sprOverflow := p.sprOverflow || overflowSearch oam p.scanline h (64 - stop) stop 0 }
    else { p with secOam := Vector.replicate 32 0xFF, sprCountNext := 0, spr0Next := false }
  else p

/-- `reverse8` (61_ppu.md R707). -/
def reverse8 (b : Byte) : Byte := b.reverse

/-- Byte `j` of secondary OAM sprite `i`. -/
def Ppu.secByte (p : Ppu) (i : Fin 8) (j : Fin 4) : Byte := p.secOam[4 * i.val + j.val]

/-- Is slot `i` filled by the last evaluation (61_ppu.md R707)? -/
def Ppu.slotValid (p : Ppu) (i : Fin 8) : Bool := i.val < p.sprCountNext

/-- The pattern address of slot `i`'s low byte (61_ppu.md R707). The row is reckoned in 8 bits (log entry 8). -/
def Ppu.spriteAddr (p : Ppu) (i : Fin 8) : PpuAddr :=
  let valid := p.slotValid i
  let tile : Byte := if valid then p.secByte i 1 else 0xFF
  let row : Byte := if valid then BitVec.ofNat 8 p.scanline - p.secByte i 0 else 0
  let row := if valid && (p.secByte i 2).getLsbD 7 then BitVec.ofNat 8 (p.spriteHeight - 1) - row else row
  if p.spriteHeight = 8 then
    (if p.ctrl.getLsbD 3 then 0x1000 else 0) ||| (tile.setWidth 14 <<< 4) ||| row.setWidth 14
  else
    ((tile &&& 1).setWidth 14 <<< 12) ||| (((tile &&& 0xFE).setWidth 14 + (row >>> 3).setWidth 14) <<< 4)
      ||| (row &&& 7).setWidth 14

/-- A fetched sprite byte as slot `i` holds it: flipped as its attribute says, 0 in an unused slot (61_ppu.md R707). -/
def Ppu.slotByte (p : Ppu) (i : Fin 8) (b : Byte) : Byte :=
  if p.slotValid i then (if (p.secByte i 2).getLsbD 6 then reverse8 b else b) else 0

/-- The slot whose fetches are made at a dot of 257-320. -/
def Ppu.slotIndex (p : Ppu) : Fin 8 := Fin.ofNat 8 ((p.dot - 257) / 8)

/-- The load of slot `i` at k = 7 from its two pattern bytes (61_ppu.md R707). -/
def Ppu.loadSlot (p : Ppu) (i : Fin 8) (lo hi : Byte) : Ppu :=
  { p with
    slots := p.slots.set i
      (if p.slotValid i then
        { patLo := p.slotByte i lo, patHi := p.slotByte i hi, attr := p.secByte i 2, x := p.secByte i 3 }
       else { patLo := 0, patHi := 0, attr := 0, x := 0 })
    slot0IsSpr0 := if i = 0 then p.spr0Next else p.slot0IsSpr0 }

/-- What k = 7 has from k = 5: the address and the low byte read there. Where rendering was off at k = 5 the address is
reckoned now and the low byte is a free value (log entry 7). -/
def Ppu.latched (p : Ppu) (cycles : Nat) : SpriteLatch :=
  p.sprLatch.getD { addr := p.spriteAddr p.slotIndex, lo := Config.unfetchedPattern cycles }

/-- The sprite fetches of dots 257-320, eight dots a slot, and the forcing of OAMADDR to 0 (61_ppu.md R707, R712). The
address is reckoned once, at k = 5; the low byte read there waits in `sprLatch`, and the slot is loaded as a whole at
k = 7. At every other dot the latch is empty. -/
def spriteFetch (w : PpuWorld) (p : Ppu) (mp : Mapper) : Ppu × Mapper :=
  if 257 ≤ p.dot && p.dot ≤ 320 then
    let p := { p with oamaddr := 0 }
    match (p.dot - 1) % 8 with
    | 1 | 3 => ({ p with sprLatch := none }, mp.ppuAddr w.cycles p.ntAddr)
    | 5 =>
      let a := p.spriteAddr p.slotIndex
      ({ p with sprLatch := some { addr := a, lo := ppuPeek w mp p.mask a } }, mp.ppuAddr w.cycles a)
    | 6 => (p, mp)
    | 7 =>
      let l := p.latched w.cycles
      ({ p.loadSlot p.slotIndex l.lo (ppuPeek w mp p.mask (l.addr + 8)) with sprLatch := none },
        mp.ppuAddr w.cycles (l.addr + 8))
    | _ => ({ p with sprLatch := none }, mp)
  else ({ p with sprLatch := none }, mp)

/-- What `sprLatch` holds at a step boundary, as a function of the elements of 61_ppu.md R651 and the memories: where the
next dot is k = 6 or k = 7 of a slot, the address and the byte that k = 5 has just read; else nothing (log entry 7). -/
def settledLatch (w : PpuWorld) (mp : Mapper) (p : Ppu) : Option SpriteLatch :=
  if p.renderingActive && 257 ≤ p.dot && p.dot ≤ 320 && 6 ≤ (p.dot - 1) % 8 then
    some { addr := p.spriteAddr p.slotIndex, lo := ppuPeek w mp p.mask (p.spriteAddr p.slotIndex) }
  else none

/-- `settledLatch` in a state. -/
def State.settledLatch (s : State) : Option SpriteLatch := Machine.settledLatch s.ppuWorld s.mach.mapper s.mach.ppu

/-- The 2-bit pixel of a slot at column `x`, 0 where the slot does not cover it (61_ppu.md R708). -/
def SpriteSlot.pixel (sl : SpriteSlot) (x : Nat) : BitVec 2 :=
  if sl.x.toNat ≤ x && x < sl.x.toNat + 8 then
    let d := x - sl.x.toNat
    bits2 (sl.patHi.getLsbD (7 - d)) (sl.patLo.getLsbD (7 - d))
  else 0

/-- May sprites show at column `x` (61_ppu.md R708)? -/
def Ppu.spritesShown (p : Ppu) (x : Nat) : Bool := p.mask.getLsbD 4 && (8 ≤ x || p.mask.getLsbD 2)

/-- The sprite pixel at column `x`: 4 bits, 0 transparent, and the winning slot's priority bit (61_ppu.md R708). -/
def Ppu.spritePixel (p : Ppu) (x : Nat) : BitVec 4 × Bool :=
  match p.slots.toList.find? fun sl => sl.pixel x != 0 with
  | some sl => if p.spritesShown x then (sl.attr.setWidth 2 ++ sl.pixel x, sl.attr.getLsbD 5) else (0, false)
  | none => (0, false)

/-! ## The pixel -/

/-- The colour index chosen from the background and the sprite pixel (61_ppu.md R708). -/
def chooseColour (bg spr : BitVec 4) (pri : Bool) : Nat :=
  if spr = 0 then bg.toNat
  else if bg = 0 || !pri then 16 + spr.toNat
  else bg.toNat

/-- Sprite-0 hit at column `x` (61_ppu.md R709). -/
def Ppu.spr0HitAt (p : Ppu) (x : Nat) : Bool :=
  p.slot0IsSpr0 && p.slots[0].pixel x != 0 && p.bgPixel x != 0 && p.spritesShown x && x != 255

/-- The 6-bit colour of the pixel at column `x`: rendered (61_ppu.md R710), or the backdrop with the background-palette
hack while rendering is disabled (R711). -/
def Ppu.colour (p : Ppu) (vmem : VideoMem) (x : Nat) : BitVec 6 :=
  if p.renderingEnabled then
    let (spr, pri) := p.spritePixel x
    paletteRead vmem p.mask (chooseColour (p.bgPixel x) spr pri)
  else paletteRead vmem p.mask (if p.v &&& 0x3F00 = 0x3F00 then p.v.toNat else 0)

/-- The pixel of this dot, on dots 1-256 of lines 0-239: its 9-bit colour goes to `fb_work`, and sprite-0 hit is
detected (61_ppu.md R709 to R711). -/
def drawPixel (vmem : VideoMem) (p : Ppu) : Ppu :=
  if p.scanline < 240 && 1 ≤ p.dot && p.dot ≤ 256 then
    let x := p.dot - 1
    { p with fbWork := Cells.write p.fbWork (256 * p.scanline + x) ((p.mask >>> 5).setWidth 3 ++ p.colour vmem x)
             spr0Hit := p.spr0Hit || (p.renderingEnabled && p.spr0HitAt x) }
  else p

/-- The status flags that change at dots (241,1) and (261,1) (61_ppu.md R691). -/
def statusFlags (p : Ppu) : Ppu :=
  if p.scanline = 241 && p.dot = 1 then
    { p with suppressVbl := false, vblankFlag := if p.suppressVbl then p.vblankFlag else true }
  else if p.scanline = 261 && p.dot = 1 then
    { p with vblankFlag := false, spr0Hit := false, sprOverflow := false, warmup := false }
  else p

/-- The rendering work of a dot, in the order of 61_ppu.md R704 and R706: shift, reload, fetch and scroll, pixel, sprite
evaluation. While rendering is disabled only the pixel is drawn (R711), and `sprLatch` is empty. -/
def renderDot (w : PpuWorld) (p : Ppu) (mp : Mapper) : Ppu × Mapper :=
  if p.renderingActive then
    let (p, mp) := bgFetch w (bgReload (bgShift p)) mp
    let (p, mp) := spriteFetch w (scrollUpdate p) mp
    (spriteEvaluation w.vmem.oam (drawPixel w.vmem p), mp)
  else (drawPixel w.vmem { p with sprLatch := none }, mp)

/-! ## The grid -/

/-- Does the grid wrap to (0,0) after this dot: after (261,340), or after (261,339) on an odd frame with rendering
enabled (61_ppu.md R690, R692)? -/
def Ppu.lastDot (p : Ppu) : Bool :=
  p.scanline ≥ 261 && (p.dot ≥ 340 || (p.scanline == 261 && p.dot == 339 && p.frameOdd && p.renderingEnabled))

/-- The counters after this dot (61_ppu.md R690). -/
def advance (p : Ppu) : Ppu :=
  if p.lastDot then { p with scanline := 0, dot := 0, frameOdd := !p.frameOdd }
  else if p.dot < 340 then { p with dot := p.dot + 1 }
  else { p with dot := 0, scanline := p.scanline + 1 }

/-- What a dot can change: the PPU, the mapper, and at the end of the grid the published FrameBuffer and `frame_done`. -/
structure DotOut where
  ppu    : Ppu
  mapper : Mapper
  frame  : Option (Cells 9)
  done   : Bool

/-- One PPU tick: the dot (scanline, dot), then the counters, then at the wrap `FrameComplete()` (61_ppu.md R650, R690,
R695): `fb_work` is published and `frame_done` set. -/
def ppuTick (w : PpuWorld) (o : DotOut) : DotOut :=
  let (p, mp) := renderDot w (statusFlags o.ppu) o.mapper
  { ppu := advance p, mapper := mp, frame := if p.lastDot then some p.fbWork else o.frame
    done := o.done || p.lastDot }

end Sys2Proof.Machine
end

