-- ==== Sys2Proof/Machine/Cycle.lean ====
section
/-! DEFINITION. What follows the bus phase in every CPU cycle: three PPU dots, one APU step, the sampling of the
interrupt lines (64_frame_driver_io.md R905, R906). -/

namespace Sys2Proof.Machine

/-- The three PPU ticks of a CPU cycle (64_frame_driver_io.md R905, R906). -/
def threeDots (s : State) : DotOut :=
  ppuTick s.ppuWorld (ppuTick s.ppuWorld (ppuTick s.ppuWorld
    { ppu := s.mach.ppu, mapper := s.mach.mapper, frame := s.host.frameBuffer, done := s.mach.frameDone }))

/-- The PPU phase. `FrameComplete()` publishes the FrameBuffer and sets `frame_done` (61_ppu.md R695). -/
def ppuPhase (s : State) : State :=
  let out := threeDots s
  { s with mach := { s.mach with ppu := out.ppu, mapper := out.mapper, frameDone := out.done }
           host := { s.host with frameBuffer := out.frame } }

/-- The APU phase: one APU step (62_apu.md R777). -/
def apuPhase (s : State) : State :=
  let a := s.mach.apu.units s.mach.hidden.cycles
  { s with mach := { s.mach with apu := { a with rsAcc := resamplerNext Config.sampleRate a.rsAcc } }
           host := { s.host with audio := resamplerBuffer Config.sampleRate a s.host.channels s.host.audio } }

/-- The IRQ line (60_exceptions.md R603). -/
def MachineState.irqLine (m : MachineState) : Bool := m.apu.fc.irq || m.apu.dmc.irq || m.mapper.irq

/-- The hidden CPU state after the sampling phase, and the count of the cycle (60_exceptions.md R604,
64_frame_driver_io.md R906). -/
def MachineState.sampled (m : MachineState) : Hidden :=
  { m.hidden with
    nmiPending := m.hidden.nmiPending || (m.ppu.nmiOut && !m.hidden.nmiPrev)
    nmiPrev := m.ppu.nmiOut
    irqLevel := m.irqLine
    cycles := m.hidden.cycles + 1 }

/-- The sampling phase, and `cycles <- cycles + 1`. -/
def samplePhase (s : State) : State := { s with mach := { s.mach with hidden := s.mach.sampled } }

/-- What every CPU cycle does after its bus phase (64_frame_driver_io.md R906). -/
def endCycle (s : State) : State := samplePhase (apuPhase (ppuPhase s))

end Sys2Proof.Machine
end

