-- ==== Sys2Proof/Machine/Flags.lean ====
section
/-! DEFINITION. The status register P and every flag computation: packing (10_state.md R57, R58), `SetNZ` (00_scope.md
R17), `AddC` and `Compare` (42_arithmetic_logic.md R301, R302), shifts (43_shift_rotate.md), and the register effects of the
instructions as functions of an operand byte and the registers. -/

namespace Sys2Proof.Machine

/-- `PackP(b)`: the byte `{N, V, 1, b, D, I, Z, C}` (10_state.md R57). -/
def packP (b : Bool) (f : Flags) : Byte :=
  bitOf f.n ++ bitOf f.v ++ bitOf true ++ bitOf b ++ bitOf f.d ++ bitOf f.i ++ bitOf f.z ++ bitOf f.c

/-- `UnpackP(v)`: bits 5 and 4 are discarded (10_state.md R58). -/
def unpackP (v : Byte) : Flags :=
  { n := v.getLsbD 7, v := v.getLsbD 6, d := v.getLsbD 3, i := v.getLsbD 2, z := v.getLsbD 1, c := v.getLsbD 0 }

/-- `SetNZ(v)` (00_scope.md R17). -/
def Flags.setNZ (v : Byte) (f : Flags) : Flags := { f with n := v.getLsbD 7, z := v == 0 }

/-- The carry out of a + b + c: bit 8 of the 9-bit sum (42_arithmetic_logic.md R301). -/
def addCarry (a b : Byte) (c : Bool) : Bool := 256 ≤ a.toNat + b.toNat + c.toNat

/-- The result of `AddC(a, b, c)` (42_arithmetic_logic.md R301). -/
def addResult (a b : Byte) (c : Bool) : Byte := a + b + (bitOf c).setWidth 8

/-- The overflow of `AddC(a, b, c)`: operands of equal sign, result of the other sign (42_arithmetic_logic.md R301). -/
def addOverflow (a b : Byte) (c : Bool) : Bool := (~~~(a ^^^ b) &&& (a ^^^ addResult a b c)).getLsbD 7

/-- `A <- AddC(A, b, P.C)`: the result, C, V, and N and Z (42_arithmetic_logic.md R301, R303). -/
def Regs.addC (b : Byte) (r : Regs) : Regs :=
  { r with a := addResult r.a b r.p.c
           p := { r.p.setNZ (addResult r.a b r.p.c) with c := addCarry r.a b r.p.c, v := addOverflow r.a b r.p.c } }

/-- `Compare(x, m)`: C, N and Z (42_arithmetic_logic.md R302). -/
def Flags.compare (x m : Byte) (f : Flags) : Flags := { f.setNZ (x - m) with c := m ≤ x }

/-! ## Register loads -/

/-- `A <- v; SetNZ(A)`. -/
def Regs.loadA (v : Byte) (r : Regs) : Regs := { r with a := v, p := r.p.setNZ v }

/-- `X <- v; SetNZ(X)`. -/
def Regs.loadX (v : Byte) (r : Regs) : Regs := { r with x := v, p := r.p.setNZ v }

/-- `Y <- v; SetNZ(Y)`. -/
def Regs.loadY (v : Byte) (r : Regs) : Regs := { r with y := v, p := r.p.setNZ v }

/-- `A <- v; X <- v; SetNZ(v)` (46_unofficial.md R506). -/
def Regs.loadAX (v : Byte) (r : Regs) : Regs := { r with a := v, x := v, p := r.p.setNZ v }

/-! ## Operations of class R -/

/-- AND (42_arithmetic_logic.md R305). -/
def Regs.and (v : Byte) (r : Regs) : Regs := r.loadA (r.a &&& v)

/-- ORA (42_arithmetic_logic.md R306). -/
def Regs.or (v : Byte) (r : Regs) : Regs := r.loadA (r.a ||| v)

/-- EOR (42_arithmetic_logic.md R307). -/
def Regs.eor (v : Byte) (r : Regs) : Regs := r.loadA (r.a ^^^ v)

/-- BIT (42_arithmetic_logic.md R308). -/
def Regs.bit (v : Byte) (r : Regs) : Regs :=
  { r with p := { r.p with z := r.a &&& v == 0, n := v.getLsbD 7, v := v.getLsbD 6 } }

/-- SBC: `A <- AddC(A, ~v, P.C)` (42_arithmetic_logic.md R304). -/
def Regs.subC (v : Byte) (r : Regs) : Regs := r.addC (~~~v)

/-- CMP (42_arithmetic_logic.md R309). -/
def Regs.cmp (v : Byte) (r : Regs) : Regs := { r with p := r.p.compare r.a v }

/-- CPX (42_arithmetic_logic.md R310). -/
def Regs.cpx (v : Byte) (r : Regs) : Regs := { r with p := r.p.compare r.x v }

/-- CPY (42_arithmetic_logic.md R311). -/
def Regs.cpy (v : Byte) (r : Regs) : Regs := { r with p := r.p.compare r.y v }

/-! ## Shifts and rotates (43_shift_rotate.md R350 to R353): the result byte and the carry -/

/-- ASL (43_shift_rotate.md R350). -/
def aslOp (x : Byte) (_ : Bool) : Byte × Bool := (x <<< 1, x.getLsbD 7)

/-- LSR (43_shift_rotate.md R351). -/
def lsrOp (x : Byte) (_ : Bool) : Byte × Bool := (x >>> 1, x.getLsbD 0)

/-- ROL (43_shift_rotate.md R352). -/
def rolOp (x : Byte) (c : Bool) : Byte × Bool := ((x <<< 1) ||| (bitOf c).setWidth 8, x.getLsbD 7)

/-- ROR (43_shift_rotate.md R353). -/
def rorOp (x : Byte) (c : Bool) : Byte × Bool := ((x >>> 1) ||| ((bitOf c).setWidth 8 <<< 7), x.getLsbD 0)

/-- The registers after a shift of a memory byte: C, N and Z (43_shift_rotate.md). -/
def Regs.shiftFlags (out : Byte × Bool) (r : Regs) : Regs := { r with p := { r.p.setNZ out.1 with c := out.2 } }

/-- The registers after a shift of A (43_shift_rotate.md). -/
def Regs.shiftA (op : Byte → Bool → Byte × Bool) (r : Regs) : Regs :=
  { r.shiftFlags (op r.a r.p.c) with a := (op r.a r.p.c).1 }

/-! ## Operations of class M: from `old` and the registers, the byte `new` and the registers after -/

/-- ASL, LSR, ROL, ROR on memory (43_shift_rotate.md R350 to R353). -/
def shiftMem (op : Byte → Bool → Byte × Bool) (old : Byte) (r : Regs) : Byte × Regs :=
  ((op old r.p.c).1, r.shiftFlags (op old r.p.c))

/-- INC (42_arithmetic_logic.md R312). -/
def incMem (old : Byte) (r : Regs) : Byte × Regs := (old + 1, { r with p := r.p.setNZ (old + 1) })

/-- DEC (42_arithmetic_logic.md R313). -/
def decMem (old : Byte) (r : Regs) : Byte × Regs := (old - 1, { r with p := r.p.setNZ (old - 1) })

/-- A memory shift followed by an operation on the byte written, which sees the carry of the shift (46_unofficial.md
R500). -/
def shiftThen (op : Byte → Bool → Byte × Bool) (f : Byte → Regs → Regs) (old : Byte) (r : Regs) : Byte × Regs :=
  ((op old r.p.c).1, f (op old r.p.c).1 { r with p := { r.p with c := (op old r.p.c).2 } })

/-- DCP (46_unofficial.md R507). -/
def dcpMem (old : Byte) (r : Regs) : Byte × Regs := (old - 1, r.cmp (old - 1))

/-- ISC (46_unofficial.md R508). -/
def iscMem (old : Byte) (r : Regs) : Byte × Regs := (old + 1, r.subC (old + 1))

/-! ## Non-documented operations of class R -/

/-- ANC (46_unofficial.md R509). -/
def Regs.anc (v : Byte) (r : Regs) : Regs :=
  { r.and v with p := { (r.and v).p with c := (r.a &&& v).getLsbD 7 } }

/-- ALR (46_unofficial.md R510). -/
def Regs.alr (v : Byte) (r : Regs) : Regs :=
  { r with a := (r.a &&& v) >>> 1, p := { r.p.setNZ ((r.a &&& v) >>> 1) with c := (r.a &&& v).getLsbD 0 } }

/-- ARR (46_unofficial.md R511). -/
def Regs.arr (v : Byte) (r : Regs) : Regs :=
  let a := ((r.a &&& v) >>> 1) ||| ((bitOf r.p.c).setWidth 8 <<< 7)
  { r with a := a, p := { r.p.setNZ a with c := a.getLsbD 6, v := a.getLsbD 6 ^^ a.getLsbD 5 } }

/-- SBX (46_unofficial.md R512). -/
def Regs.sbx (v : Byte) (r : Regs) : Regs := { r with x := (r.a &&& r.x) - v, p := r.p.compare (r.a &&& r.x) v }

/-- ANE (46_unofficial.md R515). Its constant is the open parameter ANE_LXA_MAGIC, log entry 1. -/
def Regs.ane (v : Byte) (r : Regs) : Regs := r.loadA ((r.a ||| Config.aneLxaMagic) &&& r.x &&& v)

/-- LXA (46_unofficial.md R516). Log entry 1. -/
def Regs.lxa (v : Byte) (r : Regs) : Regs := r.loadAX ((r.a ||| Config.aneLxaMagic) &&& v)

/-- LAS (46_unofficial.md R521). -/
def Regs.las (v : Byte) (r : Regs) : Regs := { r.loadAX (v &&& r.s) with s := v &&& r.s }

end Sys2Proof.Machine
end

