-- ==== Sys2Proof/Machine/Ops.lean ====
section
/-! DEFINITION. The primitives of 00_scope.md R13 and R14, each one CPU cycle, and what is built from them alone: the
interrupt, reset and return sequences and the two DMA engines. -/

namespace Sys2Proof.Machine

/-- The outcome of an instruction or a step. -/
abbrev Outcome := Host.Outcome State Fault Refusal

/-! ## Registers -/

/-- Changes the CPU registers. -/
def updateRegs (f : Regs → Regs) (s : State) : State := { s with mach := { s.mach with regs := f s.mach.regs } }

/-- Changes the hidden CPU state. -/
def updateHidden (f : Hidden → Hidden) (s : State) : State :=
  { s with mach := { s.mach with hidden := f s.mach.hidden } }

/-- `PC <- a`. -/
def setPc (a : Word) (s : State) : State := updateRegs (fun r => { r with pc := a }) s

/-- `PC <- PC + 1` (10_state.md R55). -/
def incPc (s : State) : State := updateRegs (fun r => { r with pc := r.pc + 1 }) s

/-- `S <- v`. -/
def setS (v : Byte) (s : State) : State := updateRegs (fun r => { r with s := v }) s

/-- Changes the flags. -/
def updateFlags (f : Flags → Flags) (s : State) : State := updateRegs (fun r => { r with p := f r.p }) s

/-! ## Bus cycles (00_scope.md R13) -/

/-- `MemRead(a, 1)`. -/
def memRead (a : Word) (s : State) : Byte × State := ((busRead a s).1, endCycle (busRead a s).2)

/-- `DummyRead(a)`. -/
def dummyRead (a : Word) (s : State) : State := endCycle (busRead a s).2

/-- `MemWrite(a, 1, v)`. -/
def memWrite (a : Word) (v : Byte) (s : State) : State := endCycle (busWrite a v s)

/-- `Idle()`. -/
def idle (s : State) : State := endCycle s

/-- The stack address `{$01, S}` (10_state.md R54). -/
def stackAddr (s : State) : Word := word 0x01 s.mach.regs.s

/-- `Push(v)` (00_scope.md R14). -/
def push (v : Byte) (s : State) : State :=
  updateRegs (fun r => { r with s := r.s - 1 }) (memWrite (stackAddr s) v s)

/-- The state in which `Pull()` makes its read: S already incremented (00_scope.md R14). -/
def pullPrepare (s : State) : State := updateRegs (fun r => { r with s := r.s + 1 }) s

/-- `Pull()` (00_scope.md R14). -/
def pull (s : State) : Byte × State := memRead (stackAddr (pullPrepare s)) (pullPrepare s)

/-- The decision of `Poll()`: `nmi_pending | (irq_level & ~P.I)` (60_exceptions.md R612). -/
def pollResult (s : State) : Bool := s.mach.hidden.nmiPending || (s.mach.hidden.irqLevel && !s.mach.regs.p.i)

/-- `Poll()` (60_exceptions.md R612). -/
def poll (s : State) : State := updateHidden (fun h => { h with intDue := pollResult s }) s

/-- `MemRead(PC, 1); PC <- PC + 1`: the fetch of an instruction byte (40_addressing.md R201). -/
def fetchByte (s : State) : Byte × State := ((memRead s.mach.regs.pc s).1, incPc (memRead s.mach.regs.pc s).2)

/-! ## Taking an interrupt, and returning from one -/

/-- The NMI, RESET and IRQ/BRK vectors (20_memory.md R114). -/
def nmiVector : Word := 0xFFFA
def resetVector : Word := 0xFFFC
def irqVector : Word := 0xFFFE

/-- c3 and c4 of BRK and of the interrupt sequence: PC is pushed, its high byte first (60_exceptions.md R605, R606). -/
def pushPc (s : State) : State := push (lo s.mach.regs.pc) (push (hi s.mach.regs.pc) s)

/-- `vec`, chosen at the end of c4 (60_exceptions.md R607). -/
def chooseVector (s : State) : Word := if s.mach.hidden.nmiPending then nmiVector else irqVector

/-- c6 and c7 of BRK and of the interrupt sequence: the vector is read through, I is set, `nmi_pending` cleared where the
NMI vector is used, PC loaded, `int_due` cleared (60_exceptions.md R605). The clearing of `nmi_pending` follows the
cycle c6, as it is written there (log entry 23). -/
def vectorFetch (vec : Word) (s : State) : State :=
  let c6 := memRead vec s
  let s6 := updateHidden (fun h => { h with nmiPending := h.nmiPending && vec != nmiVector })
    (updateFlags (fun f => { f with i := true }) c6.2)
  let c7 := memRead (vec + 1) s6
  updateHidden (fun h => { h with intDue := false }) (setPc (word c7.1 c6.1) c7.2)

/-- TAKING AN EXCEPTION: c3 to c7, shared by BRK (`b` true), NMI and IRQ (60_exceptions.md R605 to R607, R611). -/
def enterHandler (b : Bool) (s : State) : State :=
  let s4 := pushPc s
  vectorFetch (chooseVector s4) (push (packP b s4.mach.regs.p) s4)

/-- `Interrupt(kind)` for NMI and IRQ (60_exceptions.md R605). -/
def interruptSequence (s : State) : State :=
  let s1 := dummyRead s.mach.regs.pc s
  enterHandler false (dummyRead s1.mach.regs.pc s1)

/-- RETURN FROM AN EXCEPTION: c4 to c6 of RTI, with the poll at the end of c5, which sees the restored I
(44_control_flow.md R413, 60_exceptions.md R615). -/
def returnFromInterrupt (s : State) : State :=
  let c4 := pull s
  let c5 := pull (updateFlags (fun _ => unpackP c4.1) c4.2)
  let c6 := pull (poll c5.2)
  setPc (word c6.1 c5.1) c6.2

/-- One of the stack cycles of the reset sequence: a read, and `S <- S - 1` (60_exceptions.md R608). -/
def resetStackCycle (s : State) : State :=
  updateRegs (fun r => { r with s := r.s - 1 }) (dummyRead (stackAddr s) s)

/-- The reset sequence (60_exceptions.md R608). -/
def resetSequence (s : State) : State :=
  let s1 := dummyRead s.mach.regs.pc s
  let s2 := dummyRead s1.mach.regs.pc s1
  let c6 := memRead resetVector (resetStackCycle (resetStackCycle (resetStackCycle s2)))
  let c7 := memRead (resetVector + 1) (updateFlags (fun f => { f with i := true }) c6.2)
  updateHidden (fun h => { h with rstPending := false, jammed := false, intDue := false })
    (setPc (word c7.1 c6.1) c7.2)

/-! ## DMA -/

/-- The DMC takes the byte its DMA has read (62_apu.md R790). -/
def dmcFetched (b : Byte) (s : State) : State :=
  { s with mach := { s.mach with apu := { s.mach.apu with dmc := s.mach.apu.dmc.fetched b } } }

/-- The DMC stall: three `Idle` cycles and one read (62_apu.md R790). -/
def dmcStall (s : State) : State :=
  let s3 := idle (idle (idle s))
  dmcFetched (memRead s3.mach.apu.dmc.addr s3).1 (memRead s3.mach.apu.dmc.addr s3).2

/-- The get and the put cycle of OAM DMA for byte `i` of page `p` (20_memory.md R115). -/
def oamPair (p i : Byte) (s : State) : State :=
  memWrite 0x2004 (memRead (word p i) s).1 (memRead (word p i) s).2

/-- The first `n` pairs of an OAM DMA, in order. -/
def oamCopy (p : Byte) : Nat → State → State
  | 0, s => s
  | n + 1, s => oamPair p (BitVec.ofNat 8 n) (oamCopy p n s)

/-- Clears `oam_dma_req`. -/
def clearDmaReq (s : State) : State := { s with mach := { s.mach with dmaReq := false } }

/-- The alignment cycle of OAM DMA: one `Idle` if the index of the next cycle is odd (20_memory.md R115). -/
def dmaAlign (s : State) : State := if s.mach.hidden.cycles % 2 = 1 then idle s else s

/-- OAM DMA: a halt cycle, an alignment cycle where it is needed, 256 pairs (20_memory.md R115). -/
def oamDma (s : State) : State := clearDmaReq (oamCopy s.mach.dmaPage 256 (dmaAlign (idle s)))

/-- An OAM DMA that the instruction asked for runs after its last cycle, inside its step (20_memory.md R115). -/
def runDma (s : State) : State := if s.mach.dmaReq then oamDma s else s

/-! ## Jam -/

/-- `Halt()`: the jammed state (46_unofficial.md R540). -/
def halt (s : State) : State := updateHidden (fun h => { h with jammed := true, intDue := false }) s

end Sys2Proof.Machine
end

