-- ==== Sys2Proof/Machine/Operands.lean ====
section
/-! DEFINITION. The addressing modes (40_addressing.md R202 to R212) and the three access classes (R200, R213, R214). An
address function returns the effective address and the state after the mode's own cycles, those between the last operand byte
and the data access; the class functions then make the data access, with the poll at the end of the second-to-last cycle. -/

namespace Sys2Proof.Machine

/-- An operand mode at work: from the state after the instruction's bytes, `eff` and the state before the data access. -/
abbrev AddrFn := State → Word × State

/-! ## Effective addresses -/

/-- A zero-page address `{$00, nn}` (40_addressing.md R204). -/
def zpAddr (nn : Byte) : Word := word 0 nn

/-- The byte `t[7:0]` of an indexed address: the low byte without its carry (40_addressing.md R207). -/
def unfixed (base : Word) (index : Byte) : Word := word (hi base) (lo base + index)

/-- A page crossing: `t >= 256` (40_addressing.md R207). -/
def pageCross (base : Word) (index : Byte) : Bool := 256 ≤ (lo base).toNat + index.toNat

/-- `eff = (base + index) mod 2^16` (40_addressing.md R207). -/
def indexed (base : Word) (index : Byte) : Word := base + index.setWidth 16

/-- Zero page (40_addressing.md R204). -/
def addrZp (nn : Byte) : AddrFn := fun s => (zpAddr nn, s)

/-- Zero page indexed: the sum wraps in page zero (40_addressing.md R205). -/
def addrZpIndexed (index : Regs → Byte) (nn : Byte) : AddrFn := fun s =>
  (zpAddr (nn + index s.mach.regs), dummyRead (zpAddr nn) s)

/-- Absolute (40_addressing.md R206). -/
def addrAbs (addr : Word) : AddrFn := fun s => (addr, s)

/-- The cycle that reads before the page is fixed: for class R only on a page crossing, otherwise always
(40_addressing.md R207, R208, R210). -/
def fixCycle (always : Bool) (base : Word) (index : Byte) (s : State) : State :=
  if always || pageCross base index then dummyRead (unfixed base index) s else s

/-- Absolute indexed; `always` for classes W and M (40_addressing.md R207, R208). -/
def addrAbsIndexed (always : Bool) (index : Regs → Byte) (addr : Word) : AddrFn := fun s =>
  (indexed addr (index s.mach.regs), fixCycle always addr (index s.mach.regs) s)

/-- A pointer in page zero: its two bytes, the second at the address wrapped in the page (40_addressing.md R209,
R210). -/
def zpPointer (p : Byte) : AddrFn := fun s =>
  let c1 := memRead (zpAddr p) s
  let c2 := memRead (zpAddr (p + 1)) c1.2
  (word c2.1 c1.1, c2.2)

/-- (zero page,X) (40_addressing.md R209). -/
def addrIzx (nn : Byte) : AddrFn := fun s => zpPointer (nn + s.mach.regs.x) (dummyRead (zpAddr nn) s)

/-- (zero page),Y; `always` for classes W and M (40_addressing.md R210). -/
def addrIzy (always : Bool) (nn : Byte) : AddrFn := fun s =>
  let p := zpPointer nn s
  (indexed p.1 s.mach.regs.y, fixCycle always p.1 s.mach.regs.y p.2)

/-! ## Access classes -/

/-- Class R: the poll, the data read, then the operation on the registers (40_addressing.md R200, R213, R214). -/
def classR (op : Byte → Regs → Regs) (addr : AddrFn) (s : State) : State :=
  let a := addr s
  let c := memRead a.1 (poll a.2)
  updateRegs (op c.1) c.2

/-- Class W: the poll, then the write of a value computed from the registers (40_addressing.md R200, R213, R214). -/
def classW (val : Regs → Byte) (addr : AddrFn) (s : State) : State :=
  let a := addr s
  memWrite a.1 (val a.2.mach.regs) (poll a.2)

/-- Class M: the read of `old`, the dummy write of it, the poll, the write of `new`; then the registers take the
operation's results (40_addressing.md R200, R213, R214). -/
def classM (op : Byte → Regs → Byte × Regs) (addr : AddrFn) (s : State) : State :=
  let a := addr s
  let c := memRead a.1 a.2
  let w := poll (memWrite a.1 c.1 c.2)
  updateRegs (fun r => (op c.1 r).2) (memWrite a.1 (op c.1 w.mach.regs).1 w)

/-- Implied and accumulator modes: the poll at the end of c1, the dummy read of the next byte, the operation at the end of
c2 (40_addressing.md R202). -/
def implied (op : Regs → Regs) (s : State) : State :=
  updateRegs op (dummyRead s.mach.regs.pc (poll s))

/-- Immediate mode after its two fetches, the poll at the end of c1 among them: the operation at the end of c2
(40_addressing.md R203). -/
def immediate (op : Byte → Regs → Regs) (nn : Byte) (s : State) : State := updateRegs (op nn) s

/-- A class R operation that changes nothing: the NOPs that read (46_unofficial.md R514). -/
def noEffect (_ : Byte) (r : Regs) : Regs := r

/-! ## The SH group (46_unofficial.md R517 to R520) -/

/-- `H = (hi(base) + 1) mod 256` (46_unofficial.md, section 4). -/
def shHigh (base : Word) : Byte := hi base + 1

/-- The address the SH group stores to: `eff`, or with its high byte replaced by the value stored where a page is
crossed. -/
def shAddr (base : Word) (index val : Byte) : Word :=
  if pageCross base index then word val (lo (indexed base index)) else indexed base index

/-- The last two cycles of an SH store of `src & H`: the read before the fix-up, the poll, the write. -/
def shStore (src : Regs → Byte) (base : Word) (index : Byte) (s : State) : State :=
  let val := src s.mach.regs &&& shHigh base
  memWrite (shAddr base index val) val (poll (fixCycle true base index s))

/-! ## Branches -/

/-- The branch target `(A0 + sext_16(oo)) mod 2^16` (44_control_flow.md R400). -/
def branchTarget (a0 : Word) (oo : Byte) : Word := a0 + oo.signExtend 16

/-- c3 and c4 of a conditional branch, after its two fetches with their poll at the end of c1 (44_control_flow.md R400,
60_exceptions.md R613). -/
def branch (cond : Flags → Bool) (oo : Byte) (s : State) : State :=
  let a0 := s.mach.regs.pc
  let target := branchTarget a0 oo
  if cond s.mach.regs.p then
    let s3 := setPc (word (hi a0) (lo target)) (dummyRead a0 s)
    if hi target = hi a0 then s3
    else setPc target (dummyRead s3.mach.regs.pc (poll s3))
  else s

end Sys2Proof.Machine
end

