-- ==== Sys2Proof/Machine/Arith.lean ====
section
/-! DEFINITION. The meanings of ADC and SBC (42_arithmetic_logic.md R303, R304; 46_unofficial.md R513): from the state
after the instruction's own bytes are fetched (`fetchInstr`) to its last cycle. -/

namespace Sys2Proof.Machine

/-- ADC (nn,X), $61 (42_arithmetic_logic.md R303). -/
def execAdcIzx (nn : Byte) (s : State) : Outcome := .next (classR Regs.addC (addrIzx nn) s)

/-- ADC nn, $65 (42_arithmetic_logic.md R303). -/
def execAdcZp (nn : Byte) (s : State) : Outcome := .next (classR Regs.addC (addrZp nn) s)

/-- ADC #nn, $69 (42_arithmetic_logic.md R303). -/
def execAdcImm (nn : Byte) (s : State) : Outcome := .next (immediate Regs.addC nn s)

/-- ADC addr, $6D (42_arithmetic_logic.md R303). -/
def execAdcAbs (addr : Word) (s : State) : Outcome := .next (classR Regs.addC (addrAbs addr) s)

/-- ADC (nn),Y, $71 (42_arithmetic_logic.md R303). -/
def execAdcIzy (nn : Byte) (s : State) : Outcome := .next (classR Regs.addC (addrIzy false nn) s)

/-- ADC nn,X, $75 (42_arithmetic_logic.md R303). -/
def execAdcZpx (nn : Byte) (s : State) : Outcome := .next (classR Regs.addC (addrZpIndexed Regs.x nn) s)

/-- ADC addr,Y, $79 (42_arithmetic_logic.md R303). -/
def execAdcAby (addr : Word) (s : State) : Outcome := .next (classR Regs.addC (addrAbsIndexed false Regs.y addr) s)

/-- ADC addr,X, $7D (42_arithmetic_logic.md R303). -/
def execAdcAbx (addr : Word) (s : State) : Outcome := .next (classR Regs.addC (addrAbsIndexed false Regs.x addr) s)

/-- SBC (nn,X), $E1 (42_arithmetic_logic.md R304). -/
def execSbcIzx (nn : Byte) (s : State) : Outcome := .next (classR Regs.subC (addrIzx nn) s)

/-- SBC nn, $E5 (42_arithmetic_logic.md R304). -/
def execSbcZp (nn : Byte) (s : State) : Outcome := .next (classR Regs.subC (addrZp nn) s)

/-- SBC #nn, $E9 (42_arithmetic_logic.md R304). -/
def execSbcImm (nn : Byte) (s : State) : Outcome := .next (immediate Regs.subC nn s)

/-- SBC #nn, $EB, non-documented (46_unofficial.md R513). -/
def execSbcImmEB (nn : Byte) (s : State) : Outcome := .next (immediate Regs.subC nn s)

/-- SBC addr, $ED (42_arithmetic_logic.md R304). -/
def execSbcAbs (addr : Word) (s : State) : Outcome := .next (classR Regs.subC (addrAbs addr) s)

/-- SBC (nn),Y, $F1 (42_arithmetic_logic.md R304). -/
def execSbcIzy (nn : Byte) (s : State) : Outcome := .next (classR Regs.subC (addrIzy false nn) s)

/-- SBC nn,X, $F5 (42_arithmetic_logic.md R304). -/
def execSbcZpx (nn : Byte) (s : State) : Outcome := .next (classR Regs.subC (addrZpIndexed Regs.x nn) s)

/-- SBC addr,Y, $F9 (42_arithmetic_logic.md R304). -/
def execSbcAby (addr : Word) (s : State) : Outcome := .next (classR Regs.subC (addrAbsIndexed false Regs.y addr) s)

/-- SBC addr,X, $FD (42_arithmetic_logic.md R304). -/
def execSbcAbx (addr : Word) (s : State) : Outcome := .next (classR Regs.subC (addrAbsIndexed false Regs.x addr) s)

end Sys2Proof.Machine
end

