-- ==== Sys2Proof/Machine/Branch.lean ====
section
/-! DEFINITION. The meanings of the conditional branches (44_control_flow.md R400 to R408): from the state after the
instruction's own bytes are fetched (`fetchInstr`) to its last cycle. -/

namespace Sys2Proof.Machine

/-- BPL oo, $10 (44_control_flow.md R406). -/
def execBpl (oo : Byte) (s : State) : Outcome := .next (branch (fun f => !f.n) oo s)

/-- BMI oo, $30 (44_control_flow.md R404). -/
def execBmi (oo : Byte) (s : State) : Outcome := .next (branch (fun f => f.n) oo s)

/-- BVC oo, $50 (44_control_flow.md R407). -/
def execBvc (oo : Byte) (s : State) : Outcome := .next (branch (fun f => !f.v) oo s)

/-- BVS oo, $70 (44_control_flow.md R408). -/
def execBvs (oo : Byte) (s : State) : Outcome := .next (branch (fun f => f.v) oo s)

/-- BCC oo, $90 (44_control_flow.md R401). -/
def execBcc (oo : Byte) (s : State) : Outcome := .next (branch (fun f => !f.c) oo s)

/-- BCS oo, $B0 (44_control_flow.md R402). -/
def execBcs (oo : Byte) (s : State) : Outcome := .next (branch (fun f => f.c) oo s)

/-- BNE oo, $D0 (44_control_flow.md R405). -/
def execBne (oo : Byte) (s : State) : Outcome := .next (branch (fun f => !f.z) oo s)

/-- BEQ oo, $F0 (44_control_flow.md R403). -/
def execBeq (oo : Byte) (s : State) : Outcome := .next (branch (fun f => f.z) oo s)

end Sys2Proof.Machine
end

