-- ==== Sys2Proof/Machine/Combined.lean ====
section
/-! DEFINITION. The meanings of the combined read-modify-write opcodes (46_unofficial.md R501 to R504, R507, R508):
from the state after the instruction's own bytes are fetched (`fetchInstr`) to its last cycle. -/

namespace Sys2Proof.Machine

/-- SLO (nn,X), $03, non-documented (46_unofficial.md R501). -/
def execSloIzx (nn : Byte) (s : State) : Outcome := .next (classM (shiftThen aslOp Regs.or) (addrIzx nn) s)

/-- SLO nn, $07, non-documented (46_unofficial.md R501). -/
def execSloZp (nn : Byte) (s : State) : Outcome := .next (classM (shiftThen aslOp Regs.or) (addrZp nn) s)

/-- SLO addr, $0F, non-documented (46_unofficial.md R501). -/
def execSloAbs (addr : Word) (s : State) : Outcome := .next (classM (shiftThen aslOp Regs.or) (addrAbs addr) s)

/-- SLO (nn),Y, $13, non-documented (46_unofficial.md R501). -/
def execSloIzy (nn : Byte) (s : State) : Outcome := .next (classM (shiftThen aslOp Regs.or) (addrIzy true nn) s)

/-- SLO nn,X, $17, non-documented (46_unofficial.md R501). -/
def execSloZpx (nn : Byte) (s : State) : Outcome :=
  .next (classM (shiftThen aslOp Regs.or) (addrZpIndexed Regs.x nn) s)

/-- SLO addr,Y, $1B, non-documented (46_unofficial.md R501). -/
def execSloAby (addr : Word) (s : State) : Outcome :=
  .next (classM (shiftThen aslOp Regs.or) (addrAbsIndexed true Regs.y addr) s)

/-- SLO addr,X, $1F, non-documented (46_unofficial.md R501). -/
def execSloAbx (addr : Word) (s : State) : Outcome :=
  .next (classM (shiftThen aslOp Regs.or) (addrAbsIndexed true Regs.x addr) s)

/-- RLA (nn,X), $23, non-documented (46_unofficial.md R502). -/
def execRlaIzx (nn : Byte) (s : State) : Outcome := .next (classM (shiftThen rolOp Regs.and) (addrIzx nn) s)

/-- RLA nn, $27, non-documented (46_unofficial.md R502). -/
def execRlaZp (nn : Byte) (s : State) : Outcome := .next (classM (shiftThen rolOp Regs.and) (addrZp nn) s)

/-- RLA addr, $2F, non-documented (46_unofficial.md R502). -/
def execRlaAbs (addr : Word) (s : State) : Outcome := .next (classM (shiftThen rolOp Regs.and) (addrAbs addr) s)

/-- RLA (nn),Y, $33, non-documented (46_unofficial.md R502). -/
def execRlaIzy (nn : Byte) (s : State) : Outcome := .next (classM (shiftThen rolOp Regs.and) (addrIzy true nn) s)

/-- RLA nn,X, $37, non-documented (46_unofficial.md R502). -/
def execRlaZpx (nn : Byte) (s : State) : Outcome :=
  .next (classM (shiftThen rolOp Regs.and) (addrZpIndexed Regs.x nn) s)

/-- RLA addr,Y, $3B, non-documented (46_unofficial.md R502). -/
def execRlaAby (addr : Word) (s : State) : Outcome :=
  .next (classM (shiftThen rolOp Regs.and) (addrAbsIndexed true Regs.y addr) s)

/-- RLA addr,X, $3F, non-documented (46_unofficial.md R502). -/
def execRlaAbx (addr : Word) (s : State) : Outcome :=
  .next (classM (shiftThen rolOp Regs.and) (addrAbsIndexed true Regs.x addr) s)

/-- SRE (nn,X), $43, non-documented (46_unofficial.md R503). -/
def execSreIzx (nn : Byte) (s : State) : Outcome := .next (classM (shiftThen lsrOp Regs.eor) (addrIzx nn) s)

/-- SRE nn, $47, non-documented (46_unofficial.md R503). -/
def execSreZp (nn : Byte) (s : State) : Outcome := .next (classM (shiftThen lsrOp Regs.eor) (addrZp nn) s)

/-- SRE addr, $4F, non-documented (46_unofficial.md R503). -/
def execSreAbs (addr : Word) (s : State) : Outcome := .next (classM (shiftThen lsrOp Regs.eor) (addrAbs addr) s)

/-- SRE (nn),Y, $53, non-documented (46_unofficial.md R503). -/
def execSreIzy (nn : Byte) (s : State) : Outcome := .next (classM (shiftThen lsrOp Regs.eor) (addrIzy true nn) s)

/-- SRE nn,X, $57, non-documented (46_unofficial.md R503). -/
def execSreZpx (nn : Byte) (s : State) : Outcome :=
  .next (classM (shiftThen lsrOp Regs.eor) (addrZpIndexed Regs.x nn) s)

/-- SRE addr,Y, $5B, non-documented (46_unofficial.md R503). -/
def execSreAby (addr : Word) (s : State) : Outcome :=
  .next (classM (shiftThen lsrOp Regs.eor) (addrAbsIndexed true Regs.y addr) s)

/-- SRE addr,X, $5F, non-documented (46_unofficial.md R503). -/
def execSreAbx (addr : Word) (s : State) : Outcome :=
  .next (classM (shiftThen lsrOp Regs.eor) (addrAbsIndexed true Regs.x addr) s)

/-- RRA (nn,X), $63, non-documented (46_unofficial.md R504). -/
def execRraIzx (nn : Byte) (s : State) : Outcome := .next (classM (shiftThen rorOp Regs.addC) (addrIzx nn) s)

/-- RRA nn, $67, non-documented (46_unofficial.md R504). -/
def execRraZp (nn : Byte) (s : State) : Outcome := .next (classM (shiftThen rorOp Regs.addC) (addrZp nn) s)

/-- RRA addr, $6F, non-documented (46_unofficial.md R504). -/
def execRraAbs (addr : Word) (s : State) : Outcome := .next (classM (shiftThen rorOp Regs.addC) (addrAbs addr) s)

/-- RRA (nn),Y, $73, non-documented (46_unofficial.md R504). -/
def execRraIzy (nn : Byte) (s : State) : Outcome := .next (classM (shiftThen rorOp Regs.addC) (addrIzy true nn) s)

/-- RRA nn,X, $77, non-documented (46_unofficial.md R504). -/
def execRraZpx (nn : Byte) (s : State) : Outcome :=
  .next (classM (shiftThen rorOp Regs.addC) (addrZpIndexed Regs.x nn) s)

/-- RRA addr,Y, $7B, non-documented (46_unofficial.md R504). -/
def execRraAby (addr : Word) (s : State) : Outcome :=
  .next (classM (shiftThen rorOp Regs.addC) (addrAbsIndexed true Regs.y addr) s)

/-- RRA addr,X, $7F, non-documented (46_unofficial.md R504). -/
def execRraAbx (addr : Word) (s : State) : Outcome :=
  .next (classM (shiftThen rorOp Regs.addC) (addrAbsIndexed true Regs.x addr) s)

/-- DCP (nn,X), $C3, non-documented (46_unofficial.md R507). -/
def execDcpIzx (nn : Byte) (s : State) : Outcome := .next (classM dcpMem (addrIzx nn) s)

/-- DCP nn, $C7, non-documented (46_unofficial.md R507). -/
def execDcpZp (nn : Byte) (s : State) : Outcome := .next (classM dcpMem (addrZp nn) s)

/-- DCP addr, $CF, non-documented (46_unofficial.md R507). -/
def execDcpAbs (addr : Word) (s : State) : Outcome := .next (classM dcpMem (addrAbs addr) s)

/-- DCP (nn),Y, $D3, non-documented (46_unofficial.md R507). -/
def execDcpIzy (nn : Byte) (s : State) : Outcome := .next (classM dcpMem (addrIzy true nn) s)

/-- DCP nn,X, $D7, non-documented (46_unofficial.md R507). -/
def execDcpZpx (nn : Byte) (s : State) : Outcome := .next (classM dcpMem (addrZpIndexed Regs.x nn) s)

/-- DCP addr,Y, $DB, non-documented (46_unofficial.md R507). -/
def execDcpAby (addr : Word) (s : State) : Outcome := .next (classM dcpMem (addrAbsIndexed true Regs.y addr) s)

/-- DCP addr,X, $DF, non-documented (46_unofficial.md R507). -/
def execDcpAbx (addr : Word) (s : State) : Outcome := .next (classM dcpMem (addrAbsIndexed true Regs.x addr) s)

/-- ISC (nn,X), $E3, non-documented (46_unofficial.md R508). -/
def execIscIzx (nn : Byte) (s : State) : Outcome := .next (classM iscMem (addrIzx nn) s)

/-- ISC nn, $E7, non-documented (46_unofficial.md R508). -/
def execIscZp (nn : Byte) (s : State) : Outcome := .next (classM iscMem (addrZp nn) s)

/-- ISC addr, $EF, non-documented (46_unofficial.md R508). -/
def execIscAbs (addr : Word) (s : State) : Outcome := .next (classM iscMem (addrAbs addr) s)

/-- ISC (nn),Y, $F3, non-documented (46_unofficial.md R508). -/
def execIscIzy (nn : Byte) (s : State) : Outcome := .next (classM iscMem (addrIzy true nn) s)

/-- ISC nn,X, $F7, non-documented (46_unofficial.md R508). -/
def execIscZpx (nn : Byte) (s : State) : Outcome := .next (classM iscMem (addrZpIndexed Regs.x nn) s)

/-- ISC addr,Y, $FB, non-documented (46_unofficial.md R508). -/
def execIscAby (addr : Word) (s : State) : Outcome := .next (classM iscMem (addrAbsIndexed true Regs.y addr) s)

/-- ISC addr,X, $FF, non-documented (46_unofficial.md R508). -/
def execIscAbx (addr : Word) (s : State) : Outcome := .next (classM iscMem (addrAbsIndexed true Regs.x addr) s)

end Sys2Proof.Machine
end

