-- ==== Sys2Proof/Machine/Compare.lean ====
section
/-! DEFINITION. The meanings of CMP, CPX, CPY (42_arithmetic_logic.md R309 to R311): from the state after the
instruction's own bytes are fetched (`fetchInstr`) to its last cycle. -/

namespace Sys2Proof.Machine

/-- CPY #nn, $C0 (42_arithmetic_logic.md R311). -/
def execCpyImm (nn : Byte) (s : State) : Outcome := .next (immediate Regs.cpy nn s)

/-- CMP (nn,X), $C1 (42_arithmetic_logic.md R309). -/
def execCmpIzx (nn : Byte) (s : State) : Outcome := .next (classR Regs.cmp (addrIzx nn) s)

/-- CPY nn, $C4 (42_arithmetic_logic.md R311). -/
def execCpyZp (nn : Byte) (s : State) : Outcome := .next (classR Regs.cpy (addrZp nn) s)

/-- CMP nn, $C5 (42_arithmetic_logic.md R309). -/
def execCmpZp (nn : Byte) (s : State) : Outcome := .next (classR Regs.cmp (addrZp nn) s)

/-- CMP #nn, $C9 (42_arithmetic_logic.md R309). -/
def execCmpImm (nn : Byte) (s : State) : Outcome := .next (immediate Regs.cmp nn s)

/-- CPY addr, $CC (42_arithmetic_logic.md R311). -/
def execCpyAbs (addr : Word) (s : State) : Outcome := .next (classR Regs.cpy (addrAbs addr) s)

/-- CMP addr, $CD (42_arithmetic_logic.md R309). -/
def execCmpAbs (addr : Word) (s : State) : Outcome := .next (classR Regs.cmp (addrAbs addr) s)

/-- CMP (nn),Y, $D1 (42_arithmetic_logic.md R309). -/
def execCmpIzy (nn : Byte) (s : State) : Outcome := .next (classR Regs.cmp (addrIzy false nn) s)

/-- CMP nn,X, $D5 (42_arithmetic_logic.md R309). -/
def execCmpZpx (nn : Byte) (s : State) : Outcome := .next (classR Regs.cmp (addrZpIndexed Regs.x nn) s)

/-- CMP addr,Y, $D9 (42_arithmetic_logic.md R309). -/
def execCmpAby (addr : Word) (s : State) : Outcome := .next (classR Regs.cmp (addrAbsIndexed false Regs.y addr) s)

/-- CMP addr,X, $DD (42_arithmetic_logic.md R309). -/
def execCmpAbx (addr : Word) (s : State) : Outcome := .next (classR Regs.cmp (addrAbsIndexed false Regs.x addr) s)

/-- CPX #nn, $E0 (42_arithmetic_logic.md R310). -/
def execCpxImm (nn : Byte) (s : State) : Outcome := .next (immediate Regs.cpx nn s)

/-- CPX nn, $E4 (42_arithmetic_logic.md R310). -/
def execCpxZp (nn : Byte) (s : State) : Outcome := .next (classR Regs.cpx (addrZp nn) s)

/-- CPX addr, $EC (42_arithmetic_logic.md R310). -/
def execCpxAbs (addr : Word) (s : State) : Outcome := .next (classR Regs.cpx (addrAbs addr) s)

end Sys2Proof.Machine
end

