-- ==== Sys2Proof/Machine/FlagOps.lean ====
section
/-! DEFINITION. The meanings of the flag instructions (45_stack_flags_misc.md R454 to R460): from the state after the
instruction's own bytes are fetched (`fetchInstr`) to its last cycle. -/

namespace Sys2Proof.Machine

/-- CLC, $18 (45_stack_flags_misc.md R454). -/
def execClc (s : State) : Outcome := .next (implied (fun r => { r with p := { r.p with c := false } }) s)

/-- SEC, $38 (45_stack_flags_misc.md R458). -/
def execSec (s : State) : Outcome := .next (implied (fun r => { r with p := { r.p with c := true } }) s)

/-- CLI, $58 (45_stack_flags_misc.md R456). -/
def execCli (s : State) : Outcome := .next (implied (fun r => { r with p := { r.p with i := false } }) s)

/-- SEI, $78 (45_stack_flags_misc.md R460). -/
def execSei (s : State) : Outcome := .next (implied (fun r => { r with p := { r.p with i := true } }) s)

/-- CLV, $B8 (45_stack_flags_misc.md R457). -/
def execClv (s : State) : Outcome := .next (implied (fun r => { r with p := { r.p with v := false } }) s)

/-- CLD, $D8 (45_stack_flags_misc.md R455). -/
def execCld (s : State) : Outcome := .next (implied (fun r => { r with p := { r.p with d := false } }) s)

/-- SED, $F8 (45_stack_flags_misc.md R459). -/
def execSed (s : State) : Outcome := .next (implied (fun r => { r with p := { r.p with d := true } }) s)

end Sys2Proof.Machine
end

