-- ==== Sys2Proof/Machine/IncDec.lean ====
section
/-! DEFINITION. The meanings of INC, DEC, INX, INY, DEX, DEY (42_arithmetic_logic.md R312 to R317): from the state
after the instruction's own bytes are fetched (`fetchInstr`) to its last cycle. -/

namespace Sys2Proof.Machine

/-- DEY, $88 (42_arithmetic_logic.md R317). -/
def execDey (s : State) : Outcome := .next (implied (fun r => r.loadY (r.y - 1)) s)

/-- DEC nn, $C6 (42_arithmetic_logic.md R313). -/
def execDecZp (nn : Byte) (s : State) : Outcome := .next (classM decMem (addrZp nn) s)

/-- INY, $C8 (42_arithmetic_logic.md R315). -/
def execIny (s : State) : Outcome := .next (implied (fun r => r.loadY (r.y + 1)) s)

/-- DEX, $CA (42_arithmetic_logic.md R316). -/
def execDex (s : State) : Outcome := .next (implied (fun r => r.loadX (r.x - 1)) s)

/-- DEC addr, $CE (42_arithmetic_logic.md R313). -/
def execDecAbs (addr : Word) (s : State) : Outcome := .next (classM decMem (addrAbs addr) s)

/-- DEC nn,X, $D6 (42_arithmetic_logic.md R313). -/
def execDecZpx (nn : Byte) (s : State) : Outcome := .next (classM decMem (addrZpIndexed Regs.x nn) s)

/-- DEC addr,X, $DE (42_arithmetic_logic.md R313). -/
def execDecAbx (addr : Word) (s : State) : Outcome := .next (classM decMem (addrAbsIndexed true Regs.x addr) s)

/-- INC nn, $E6 (42_arithmetic_logic.md R312). -/
def execIncZp (nn : Byte) (s : State) : Outcome := .next (classM incMem (addrZp nn) s)

/-- INX, $E8 (42_arithmetic_logic.md R314). -/
def execInx (s : State) : Outcome := .next (implied (fun r => r.loadX (r.x + 1)) s)

/-- INC addr, $EE (42_arithmetic_logic.md R312). -/
def execIncAbs (addr : Word) (s : State) : Outcome := .next (classM incMem (addrAbs addr) s)

/-- INC nn,X, $F6 (42_arithmetic_logic.md R312). -/
def execIncZpx (nn : Byte) (s : State) : Outcome := .next (classM incMem (addrZpIndexed Regs.x nn) s)

/-- INC addr,X, $FE (42_arithmetic_logic.md R312). -/
def execIncAbx (addr : Word) (s : State) : Outcome := .next (classM incMem (addrAbsIndexed true Regs.x addr) s)

end Sys2Proof.Machine
end

