-- ==== Sys2Proof/Machine/Jam.lean ====
section
/-! DEFINITION. The meanings of JAM (46_unofficial.md R540): from the state after the instruction's own bytes are
fetched (`fetchInstr`) to its last cycle. -/

namespace Sys2Proof.Machine

/-- JAM, $02, non-documented (46_unofficial.md R540). -/
def execJam02 (s : State) : Outcome := .next (halt s)

/-- JAM, $12, non-documented (46_unofficial.md R540). -/
def execJam12 (s : State) : Outcome := .next (halt s)

/-- JAM, $22, non-documented (46_unofficial.md R540). -/
def execJam22 (s : State) : Outcome := .next (halt s)

/-- JAM, $32, non-documented (46_unofficial.md R540). -/
def execJam32 (s : State) : Outcome := .next (halt s)

/-- JAM, $42, non-documented (46_unofficial.md R540). -/
def execJam42 (s : State) : Outcome := .next (halt s)

/-- JAM, $52, non-documented (46_unofficial.md R540). -/
def execJam52 (s : State) : Outcome := .next (halt s)

/-- JAM, $62, non-documented (46_unofficial.md R540). -/
def execJam62 (s : State) : Outcome := .next (halt s)

/-- JAM, $72, non-documented (46_unofficial.md R540). -/
def execJam72 (s : State) : Outcome := .next (halt s)

/-- JAM, $92, non-documented (46_unofficial.md R540). -/
def execJam92 (s : State) : Outcome := .next (halt s)

/-- JAM, $B2, non-documented (46_unofficial.md R540). -/
def execJamB2 (s : State) : Outcome := .next (halt s)

/-- JAM, $D2, non-documented (46_unofficial.md R540). -/
def execJamD2 (s : State) : Outcome := .next (halt s)

/-- JAM, $F2, non-documented (46_unofficial.md R540). -/
def execJamF2 (s : State) : Outcome := .next (halt s)

end Sys2Proof.Machine
end

