-- ==== Sys2Proof/Machine/Jump.lean ====
section
/-! DEFINITION. The meanings of JMP, JSR, RTS, RTI, BRK (44_control_flow.md R409 to R413): from the state after the
instruction's own bytes are fetched (`fetchInstr`) to its last cycle. -/

namespace Sys2Proof.Machine

/-- BRK, $00 (44_control_flow.md R410). -/
def execBrk (_pad : Byte) (s : State) : Outcome := .next (enterHandler true s)

/-- JSR addr, $20 (44_control_flow.md R411). Its third byte is read here, in c6, after the pushes; the high byte of
`addr` is what the decoder saw before them (log entry 11). -/
def execJsrAbs (addr : Word) (s : State) : Outcome :=
  let s5 := poll (pushPc (dummyRead (stackAddr s) s))
  let c6 := memRead s5.mach.regs.pc s5
  .next (setPc (word c6.1 (lo addr)) c6.2)

/-- RTI, $40 (44_control_flow.md R413). -/
def execRti (s : State) : Outcome :=
  let s2 := dummyRead s.mach.regs.pc s
  .next (returnFromInterrupt (dummyRead (stackAddr s2) s2))

/-- JMP addr, $4C (44_control_flow.md R409). -/
def execJmpAbs (addr : Word) (s : State) : Outcome := .next (setPc addr s)

/-- RTS, $60 (44_control_flow.md R412). -/
def execRts (s : State) : Outcome :=
  let s2 := dummyRead s.mach.regs.pc s
  let c4 := pull (dummyRead (stackAddr s2) s2)
  let c5 := pull c4.2
  .next (setPc (word c5.1 c4.1 + 1) (dummyRead (word c5.1 c4.1) (poll c5.2)))

/-- JMP (addr), $6C (44_control_flow.md R409). -/
def execJmpInd (addr : Word) (s : State) : Outcome :=
  let c4 := memRead addr s
  let c5 := memRead (word (hi addr) (lo addr + 1)) (poll c4.2)
  .next (setPc (word c5.1 c4.1) c5.2)

end Sys2Proof.Machine
end

