-- ==== Sys2Proof/Machine/Load.lean ====
section
/-! DEFINITION. The meanings of LDA, LDX, LDY (41_load_store_transfer.md R250 to R252): from the state after the
instruction's own bytes are fetched (`fetchInstr`) to its last cycle. -/

namespace Sys2Proof.Machine

/-- LDY #nn, $A0 (41_load_store_transfer.md R252). -/
def execLdyImm (nn : Byte) (s : State) : Outcome := .next (immediate Regs.loadY nn s)

/-- LDA (nn,X), $A1 (41_load_store_transfer.md R250). -/
def execLdaIzx (nn : Byte) (s : State) : Outcome := .next (classR Regs.loadA (addrIzx nn) s)

/-- LDX #nn, $A2 (41_load_store_transfer.md R251). -/
def execLdxImm (nn : Byte) (s : State) : Outcome := .next (immediate Regs.loadX nn s)

/-- LDY nn, $A4 (41_load_store_transfer.md R252). -/
def execLdyZp (nn : Byte) (s : State) : Outcome := .next (classR Regs.loadY (addrZp nn) s)

/-- LDA nn, $A5 (41_load_store_transfer.md R250). -/
def execLdaZp (nn : Byte) (s : State) : Outcome := .next (classR Regs.loadA (addrZp nn) s)

/-- LDX nn, $A6 (41_load_store_transfer.md R251). -/
def execLdxZp (nn : Byte) (s : State) : Outcome := .next (classR Regs.loadX (addrZp nn) s)

/-- LDA #nn, $A9 (41_load_store_transfer.md R250). -/
def execLdaImm (nn : Byte) (s : State) : Outcome := .next (immediate Regs.loadA nn s)

/-- LDY addr, $AC (41_load_store_transfer.md R252). -/
def execLdyAbs (addr : Word) (s : State) : Outcome := .next (classR Regs.loadY (addrAbs addr) s)

/-- LDA addr, $AD (41_load_store_transfer.md R250). -/
def execLdaAbs (addr : Word) (s : State) : Outcome := .next (classR Regs.loadA (addrAbs addr) s)

/-- LDX addr, $AE (41_load_store_transfer.md R251). -/
def execLdxAbs (addr : Word) (s : State) : Outcome := .next (classR Regs.loadX (addrAbs addr) s)

/-- LDA (nn),Y, $B1 (41_load_store_transfer.md R250). -/
def execLdaIzy (nn : Byte) (s : State) : Outcome := .next (classR Regs.loadA (addrIzy false nn) s)

/-- LDY nn,X, $B4 (41_load_store_transfer.md R252). -/
def execLdyZpx (nn : Byte) (s : State) : Outcome := .next (classR Regs.loadY (addrZpIndexed Regs.x nn) s)

/-- LDA nn,X, $B5 (41_load_store_transfer.md R250). -/
def execLdaZpx (nn : Byte) (s : State) : Outcome := .next (classR Regs.loadA (addrZpIndexed Regs.x nn) s)

/-- LDX nn,Y, $B6 (41_load_store_transfer.md R251). -/
def execLdxZpy (nn : Byte) (s : State) : Outcome := .next (classR Regs.loadX (addrZpIndexed Regs.y nn) s)

/-- LDA addr,Y, $B9 (41_load_store_transfer.md R250). -/
def execLdaAby (addr : Word) (s : State) : Outcome := .next (classR Regs.loadA (addrAbsIndexed false Regs.y addr) s)

/-- LDY addr,X, $BC (41_load_store_transfer.md R252). -/
def execLdyAbx (addr : Word) (s : State) : Outcome := .next (classR Regs.loadY (addrAbsIndexed false Regs.x addr) s)

/-- LDA addr,X, $BD (41_load_store_transfer.md R250). -/
def execLdaAbx (addr : Word) (s : State) : Outcome := .next (classR Regs.loadA (addrAbsIndexed false Regs.x addr) s)

/-- LDX addr,Y, $BE (41_load_store_transfer.md R251). -/
def execLdxAby (addr : Word) (s : State) : Outcome := .next (classR Regs.loadX (addrAbsIndexed false Regs.y addr) s)

end Sys2Proof.Machine
end

