-- ==== Sys2Proof/Machine/Logic.lean ====
section
/-! DEFINITION. The meanings of AND, ORA, EOR, BIT (42_arithmetic_logic.md R305 to R308): from the state after the
instruction's own bytes are fetched (`fetchInstr`) to its last cycle. -/

namespace Sys2Proof.Machine

/-- ORA (nn,X), $01 (42_arithmetic_logic.md R306). -/
def execOraIzx (nn : Byte) (s : State) : Outcome := .next (classR Regs.or (addrIzx nn) s)

/-- ORA nn, $05 (42_arithmetic_logic.md R306). -/
def execOraZp (nn : Byte) (s : State) : Outcome := .next (classR Regs.or (addrZp nn) s)

/-- ORA #nn, $09 (42_arithmetic_logic.md R306). -/
def execOraImm (nn : Byte) (s : State) : Outcome := .next (immediate Regs.or nn s)

/-- ORA addr, $0D (42_arithmetic_logic.md R306). -/
def execOraAbs (addr : Word) (s : State) : Outcome := .next (classR Regs.or (addrAbs addr) s)

/-- ORA (nn),Y, $11 (42_arithmetic_logic.md R306). -/
def execOraIzy (nn : Byte) (s : State) : Outcome := .next (classR Regs.or (addrIzy false nn) s)

/-- ORA nn,X, $15 (42_arithmetic_logic.md R306). -/
def execOraZpx (nn : Byte) (s : State) : Outcome := .next (classR Regs.or (addrZpIndexed Regs.x nn) s)

/-- ORA addr,Y, $19 (42_arithmetic_logic.md R306). -/
def execOraAby (addr : Word) (s : State) : Outcome := .next (classR Regs.or (addrAbsIndexed false Regs.y addr) s)

/-- ORA addr,X, $1D (42_arithmetic_logic.md R306). -/
def execOraAbx (addr : Word) (s : State) : Outcome := .next (classR Regs.or (addrAbsIndexed false Regs.x addr) s)

/-- AND (nn,X), $21 (42_arithmetic_logic.md R305). -/
def execAndIzx (nn : Byte) (s : State) : Outcome := .next (classR Regs.and (addrIzx nn) s)

/-- BIT nn, $24 (42_arithmetic_logic.md R308). -/
def execBitZp (nn : Byte) (s : State) : Outcome := .next (classR Regs.bit (addrZp nn) s)

/-- AND nn, $25 (42_arithmetic_logic.md R305). -/
def execAndZp (nn : Byte) (s : State) : Outcome := .next (classR Regs.and (addrZp nn) s)

/-- AND #nn, $29 (42_arithmetic_logic.md R305). -/
def execAndImm (nn : Byte) (s : State) : Outcome := .next (immediate Regs.and nn s)

/-- BIT addr, $2C (42_arithmetic_logic.md R308). -/
def execBitAbs (addr : Word) (s : State) : Outcome := .next (classR Regs.bit (addrAbs addr) s)

/-- AND addr, $2D (42_arithmetic_logic.md R305). -/
def execAndAbs (addr : Word) (s : State) : Outcome := .next (classR Regs.and (addrAbs addr) s)

/-- AND (nn),Y, $31 (42_arithmetic_logic.md R305). -/
def execAndIzy (nn : Byte) (s : State) : Outcome := .next (classR Regs.and (addrIzy false nn) s)

/-- AND nn,X, $35 (42_arithmetic_logic.md R305). -/
def execAndZpx (nn : Byte) (s : State) : Outcome := .next (classR Regs.and (addrZpIndexed Regs.x nn) s)

/-- AND addr,Y, $39 (42_arithmetic_logic.md R305). -/
def execAndAby (addr : Word) (s : State) : Outcome := .next (classR Regs.and (addrAbsIndexed false Regs.y addr) s)

/-- AND addr,X, $3D (42_arithmetic_logic.md R305). -/
def execAndAbx (addr : Word) (s : State) : Outcome := .next (classR Regs.and (addrAbsIndexed false Regs.x addr) s)

/-- EOR (nn,X), $41 (42_arithmetic_logic.md R307). -/
def execEorIzx (nn : Byte) (s : State) : Outcome := .next (classR Regs.eor (addrIzx nn) s)

/-- EOR nn, $45 (42_arithmetic_logic.md R307). -/
def execEorZp (nn : Byte) (s : State) : Outcome := .next (classR Regs.eor (addrZp nn) s)

/-- EOR #nn, $49 (42_arithmetic_logic.md R307). -/
def execEorImm (nn : Byte) (s : State) : Outcome := .next (immediate Regs.eor nn s)

/-- EOR addr, $4D (42_arithmetic_logic.md R307). -/
def execEorAbs (addr : Word) (s : State) : Outcome := .next (classR Regs.eor (addrAbs addr) s)

/-- EOR (nn),Y, $51 (42_arithmetic_logic.md R307). -/
def execEorIzy (nn : Byte) (s : State) : Outcome := .next (classR Regs.eor (addrIzy false nn) s)

/-- EOR nn,X, $55 (42_arithmetic_logic.md R307). -/
def execEorZpx (nn : Byte) (s : State) : Outcome := .next (classR Regs.eor (addrZpIndexed Regs.x nn) s)

/-- EOR addr,Y, $59 (42_arithmetic_logic.md R307). -/
def execEorAby (addr : Word) (s : State) : Outcome := .next (classR Regs.eor (addrAbsIndexed false Regs.y addr) s)

/-- EOR addr,X, $5D (42_arithmetic_logic.md R307). -/
def execEorAbx (addr : Word) (s : State) : Outcome := .next (classR Regs.eor (addrAbsIndexed false Regs.x addr) s)

end Sys2Proof.Machine
end

