-- ==== Sys2Proof/Machine/Nop.lean ====
section
/-! DEFINITION. The meanings of NOP, documented and not (45_stack_flags_misc.md R461, 46_unofficial.md R514): from the
state after the instruction's own bytes are fetched (`fetchInstr`) to its last cycle. -/

namespace Sys2Proof.Machine

/-- NOP nn, $04, non-documented (46_unofficial.md R514). -/
def execNopZp04 (nn : Byte) (s : State) : Outcome := .next (classR noEffect (addrZp nn) s)

/-- NOP addr, $0C, non-documented (46_unofficial.md R514). -/
def execNopAbs0C (addr : Word) (s : State) : Outcome := .next (classR noEffect (addrAbs addr) s)

/-- NOP nn,X, $14, non-documented (46_unofficial.md R514). -/
def execNopZpx14 (nn : Byte) (s : State) : Outcome := .next (classR noEffect (addrZpIndexed Regs.x nn) s)

/-- NOP, $1A, non-documented (46_unofficial.md R514). -/
def execNopImp1A (s : State) : Outcome := .next (implied id s)

/-- NOP addr,X, $1C, non-documented (46_unofficial.md R514). -/
def execNopAbx1C (addr : Word) (s : State) : Outcome := .next (classR noEffect (addrAbsIndexed false Regs.x addr) s)

/-- NOP nn,X, $34, non-documented (46_unofficial.md R514). -/
def execNopZpx34 (nn : Byte) (s : State) : Outcome := .next (classR noEffect (addrZpIndexed Regs.x nn) s)

/-- NOP, $3A, non-documented (46_unofficial.md R514). -/
def execNopImp3A (s : State) : Outcome := .next (implied id s)

/-- NOP addr,X, $3C, non-documented (46_unofficial.md R514). -/
def execNopAbx3C (addr : Word) (s : State) : Outcome := .next (classR noEffect (addrAbsIndexed false Regs.x addr) s)

/-- NOP nn, $44, non-documented (46_unofficial.md R514). -/
def execNopZp44 (nn : Byte) (s : State) : Outcome := .next (classR noEffect (addrZp nn) s)

/-- NOP nn,X, $54, non-documented (46_unofficial.md R514). -/
def execNopZpx54 (nn : Byte) (s : State) : Outcome := .next (classR noEffect (addrZpIndexed Regs.x nn) s)

/-- NOP, $5A, non-documented (46_unofficial.md R514). -/
def execNopImp5A (s : State) : Outcome := .next (implied id s)

/-- NOP addr,X, $5C, non-documented (46_unofficial.md R514). -/
def execNopAbx5C (addr : Word) (s : State) : Outcome := .next (classR noEffect (addrAbsIndexed false Regs.x addr) s)

/-- NOP nn, $64, non-documented (46_unofficial.md R514). -/
def execNopZp64 (nn : Byte) (s : State) : Outcome := .next (classR noEffect (addrZp nn) s)

/-- NOP nn,X, $74, non-documented (46_unofficial.md R514). -/
def execNopZpx74 (nn : Byte) (s : State) : Outcome := .next (classR noEffect (addrZpIndexed Regs.x nn) s)

/-- NOP, $7A, non-documented (46_unofficial.md R514). -/
def execNopImp7A (s : State) : Outcome := .next (implied id s)

/-- NOP addr,X, $7C, non-documented (46_unofficial.md R514). -/
def execNopAbx7C (addr : Word) (s : State) : Outcome := .next (classR noEffect (addrAbsIndexed false Regs.x addr) s)

/-- NOP #nn, $80, non-documented (46_unofficial.md R514). -/
def execNopImm80 (nn : Byte) (s : State) : Outcome := .next (immediate noEffect nn s)

/-- NOP #nn, $82, non-documented (46_unofficial.md R514). -/
def execNopImm82 (nn : Byte) (s : State) : Outcome := .next (immediate noEffect nn s)

/-- NOP #nn, $89, non-documented (46_unofficial.md R514). -/
def execNopImm89 (nn : Byte) (s : State) : Outcome := .next (immediate noEffect nn s)

/-- NOP #nn, $C2, non-documented (46_unofficial.md R514). -/
def execNopImmC2 (nn : Byte) (s : State) : Outcome := .next (immediate noEffect nn s)

/-- NOP nn,X, $D4, non-documented (46_unofficial.md R514). -/
def execNopZpxD4 (nn : Byte) (s : State) : Outcome := .next (classR noEffect (addrZpIndexed Regs.x nn) s)

/-- NOP, $DA, non-documented (46_unofficial.md R514). -/
def execNopImpDA (s : State) : Outcome := .next (implied id s)

/-- NOP addr,X, $DC, non-documented (46_unofficial.md R514). -/
def execNopAbxDC (addr : Word) (s : State) : Outcome := .next (classR noEffect (addrAbsIndexed false Regs.x addr) s)

/-- NOP #nn, $E2, non-documented (46_unofficial.md R514). -/
def execNopImmE2 (nn : Byte) (s : State) : Outcome := .next (immediate noEffect nn s)

/-- NOP, $EA (45_stack_flags_misc.md R461). -/
def execNop (s : State) : Outcome := .next (implied id s)

/-- NOP nn,X, $F4, non-documented (46_unofficial.md R514). -/
def execNopZpxF4 (nn : Byte) (s : State) : Outcome := .next (classR noEffect (addrZpIndexed Regs.x nn) s)

/-- NOP, $FA, non-documented (46_unofficial.md R514). -/
def execNopImpFA (s : State) : Outcome := .next (implied id s)

/-- NOP addr,X, $FC, non-documented (46_unofficial.md R514). -/
def execNopAbxFC (addr : Word) (s : State) : Outcome := .next (classR noEffect (addrAbsIndexed false Regs.x addr) s)

end Sys2Proof.Machine
end

