-- ==== Sys2Proof/Machine/RegCombined.lean ====
section
/-! DEFINITION. The meanings of the combined register opcodes (46_unofficial.md R505, R506, R509 to R512, R521): from
the state after the instruction's own bytes are fetched (`fetchInstr`) to its last cycle. -/

namespace Sys2Proof.Machine

/-- A AND X, what SAX stores (46_unofficial.md R505). -/
def Regs.ax (r : Regs) : Byte := r.a &&& r.x

/-- ANC #nn, $0B, non-documented (46_unofficial.md R509). -/
def execAncImm0B (nn : Byte) (s : State) : Outcome := .next (immediate Regs.anc nn s)

/-- ANC #nn, $2B, non-documented (46_unofficial.md R509). -/
def execAncImm2B (nn : Byte) (s : State) : Outcome := .next (immediate Regs.anc nn s)

/-- ALR #nn, $4B, non-documented (46_unofficial.md R510). -/
def execAlrImm (nn : Byte) (s : State) : Outcome := .next (immediate Regs.alr nn s)

/-- ARR #nn, $6B, non-documented (46_unofficial.md R511). -/
def execArrImm (nn : Byte) (s : State) : Outcome := .next (immediate Regs.arr nn s)

/-- SAX (nn,X), $83, non-documented (46_unofficial.md R505). -/
def execSaxIzx (nn : Byte) (s : State) : Outcome := .next (classW Regs.ax (addrIzx nn) s)

/-- SAX nn, $87, non-documented (46_unofficial.md R505). -/
def execSaxZp (nn : Byte) (s : State) : Outcome := .next (classW Regs.ax (addrZp nn) s)

/-- SAX addr, $8F, non-documented (46_unofficial.md R505). -/
def execSaxAbs (addr : Word) (s : State) : Outcome := .next (classW Regs.ax (addrAbs addr) s)

/-- SAX nn,Y, $97, non-documented (46_unofficial.md R505). -/
def execSaxZpy (nn : Byte) (s : State) : Outcome := .next (classW Regs.ax (addrZpIndexed Regs.y nn) s)

/-- LAX (nn,X), $A3, non-documented (46_unofficial.md R506). -/
def execLaxIzx (nn : Byte) (s : State) : Outcome := .next (classR Regs.loadAX (addrIzx nn) s)

/-- LAX nn, $A7, non-documented (46_unofficial.md R506). -/
def execLaxZp (nn : Byte) (s : State) : Outcome := .next (classR Regs.loadAX (addrZp nn) s)

/-- LAX addr, $AF, non-documented (46_unofficial.md R506). -/
def execLaxAbs (addr : Word) (s : State) : Outcome := .next (classR Regs.loadAX (addrAbs addr) s)

/-- LAX (nn),Y, $B3, non-documented (46_unofficial.md R506). -/
def execLaxIzy (nn : Byte) (s : State) : Outcome := .next (classR Regs.loadAX (addrIzy false nn) s)

/-- LAX nn,Y, $B7, non-documented (46_unofficial.md R506). -/
def execLaxZpy (nn : Byte) (s : State) : Outcome := .next (classR Regs.loadAX (addrZpIndexed Regs.y nn) s)

/-- LAS addr,Y, $BB, non-documented (46_unofficial.md R521). -/
def execLasAby (addr : Word) (s : State) : Outcome := .next (classR Regs.las (addrAbsIndexed false Regs.y addr) s)

/-- LAX addr,Y, $BF, non-documented (46_unofficial.md R506). -/
def execLaxAby (addr : Word) (s : State) : Outcome := .next (classR Regs.loadAX (addrAbsIndexed false Regs.y addr) s)

/-- SBX #nn, $CB, non-documented (46_unofficial.md R512). -/
def execSbxImm (nn : Byte) (s : State) : Outcome := .next (immediate Regs.sbx nn s)

end Sys2Proof.Machine
end

