-- ==== Sys2Proof/Machine/Shift.lean ====
section
/-! DEFINITION. The meanings of ASL, LSR, ROL, ROR (43_shift_rotate.md R350 to R353): from the state after the
instruction's own bytes are fetched (`fetchInstr`) to its last cycle. -/

namespace Sys2Proof.Machine

/-- ASL nn, $06 (43_shift_rotate.md R350). -/
def execAslZp (nn : Byte) (s : State) : Outcome := .next (classM (shiftMem aslOp) (addrZp nn) s)

/-- ASL A, $0A (43_shift_rotate.md R350). -/
def execAslA (s : State) : Outcome := .next (implied (Regs.shiftA aslOp) s)

/-- ASL addr, $0E (43_shift_rotate.md R350). -/
def execAslAbs (addr : Word) (s : State) : Outcome := .next (classM (shiftMem aslOp) (addrAbs addr) s)

/-- ASL nn,X, $16 (43_shift_rotate.md R350). -/
def execAslZpx (nn : Byte) (s : State) : Outcome := .next (classM (shiftMem aslOp) (addrZpIndexed Regs.x nn) s)

/-- ASL addr,X, $1E (43_shift_rotate.md R350). -/
def execAslAbx (addr : Word) (s : State) : Outcome :=
  .next (classM (shiftMem aslOp) (addrAbsIndexed true Regs.x addr) s)

/-- ROL nn, $26 (43_shift_rotate.md R352). -/
def execRolZp (nn : Byte) (s : State) : Outcome := .next (classM (shiftMem rolOp) (addrZp nn) s)

/-- ROL A, $2A (43_shift_rotate.md R352). -/
def execRolA (s : State) : Outcome := .next (implied (Regs.shiftA rolOp) s)

/-- ROL addr, $2E (43_shift_rotate.md R352). -/
def execRolAbs (addr : Word) (s : State) : Outcome := .next (classM (shiftMem rolOp) (addrAbs addr) s)

/-- ROL nn,X, $36 (43_shift_rotate.md R352). -/
def execRolZpx (nn : Byte) (s : State) : Outcome := .next (classM (shiftMem rolOp) (addrZpIndexed Regs.x nn) s)

/-- ROL addr,X, $3E (43_shift_rotate.md R352). -/
def execRolAbx (addr : Word) (s : State) : Outcome :=
  .next (classM (shiftMem rolOp) (addrAbsIndexed true Regs.x addr) s)

/-- LSR nn, $46 (43_shift_rotate.md R351). -/
def execLsrZp (nn : Byte) (s : State) : Outcome := .next (classM (shiftMem lsrOp) (addrZp nn) s)

/-- LSR A, $4A (43_shift_rotate.md R351). -/
def execLsrA (s : State) : Outcome := .next (implied (Regs.shiftA lsrOp) s)

/-- LSR addr, $4E (43_shift_rotate.md R351). -/
def execLsrAbs (addr : Word) (s : State) : Outcome := .next (classM (shiftMem lsrOp) (addrAbs addr) s)

/-- LSR nn,X, $56 (43_shift_rotate.md R351). -/
def execLsrZpx (nn : Byte) (s : State) : Outcome := .next (classM (shiftMem lsrOp) (addrZpIndexed Regs.x nn) s)

/-- LSR addr,X, $5E (43_shift_rotate.md R351). -/
def execLsrAbx (addr : Word) (s : State) : Outcome :=
  .next (classM (shiftMem lsrOp) (addrAbsIndexed true Regs.x addr) s)

/-- ROR nn, $66 (43_shift_rotate.md R353). -/
def execRorZp (nn : Byte) (s : State) : Outcome := .next (classM (shiftMem rorOp) (addrZp nn) s)

/-- ROR A, $6A (43_shift_rotate.md R353). -/
def execRorA (s : State) : Outcome := .next (implied (Regs.shiftA rorOp) s)

/-- ROR addr, $6E (43_shift_rotate.md R353). -/
def execRorAbs (addr : Word) (s : State) : Outcome := .next (classM (shiftMem rorOp) (addrAbs addr) s)

/-- ROR nn,X, $76 (43_shift_rotate.md R353). -/
def execRorZpx (nn : Byte) (s : State) : Outcome := .next (classM (shiftMem rorOp) (addrZpIndexed Regs.x nn) s)

/-- ROR addr,X, $7E (43_shift_rotate.md R353). -/
def execRorAbx (addr : Word) (s : State) : Outcome :=
  .next (classM (shiftMem rorOp) (addrAbsIndexed true Regs.x addr) s)

end Sys2Proof.Machine
end

