-- ==== Sys2Proof/Machine/Stack.lean ====
section
/-! DEFINITION. The meanings of PHA, PHP, PLA, PLP (45_stack_flags_misc.md R450 to R453): from the state after the
instruction's own bytes are fetched (`fetchInstr`) to its last cycle. -/

namespace Sys2Proof.Machine

/-- PHP, $08 (45_stack_flags_misc.md R451). -/
def execPhp (s : State) : Outcome :=
  let s2 := poll (dummyRead s.mach.regs.pc s)
  .next (push (packP true s2.mach.regs.p) s2)

/-- PLP, $28 (45_stack_flags_misc.md R453). -/
def execPlp (s : State) : Outcome :=
  let s2 := dummyRead s.mach.regs.pc s
  let c4 := pull (poll (dummyRead (stackAddr s2) s2))
  .next (updateFlags (fun _ => unpackP c4.1) c4.2)

/-- PHA, $48 (45_stack_flags_misc.md R450). -/
def execPha (s : State) : Outcome :=
  let s2 := poll (dummyRead s.mach.regs.pc s)
  .next (push s2.mach.regs.a s2)

/-- PLA, $68 (45_stack_flags_misc.md R452). -/
def execPla (s : State) : Outcome :=
  let s2 := dummyRead s.mach.regs.pc s
  let c4 := pull (poll (dummyRead (stackAddr s2) s2))
  .next (updateRegs (Regs.loadA c4.1) c4.2)

end Sys2Proof.Machine
end

