-- ==== Sys2Proof/Machine/Store.lean ====
section
/-! DEFINITION. The meanings of STA, STX, STY (41_load_store_transfer.md R253 to R255): from the state after the
instruction's own bytes are fetched (`fetchInstr`) to its last cycle. -/

namespace Sys2Proof.Machine

/-- STA (nn,X), $81 (41_load_store_transfer.md R253). -/
def execStaIzx (nn : Byte) (s : State) : Outcome := .next (classW Regs.a (addrIzx nn) s)

/-- STY nn, $84 (41_load_store_transfer.md R255). -/
def execStyZp (nn : Byte) (s : State) : Outcome := .next (classW Regs.y (addrZp nn) s)

/-- STA nn, $85 (41_load_store_transfer.md R253). -/
def execStaZp (nn : Byte) (s : State) : Outcome := .next (classW Regs.a (addrZp nn) s)

/-- STX nn, $86 (41_load_store_transfer.md R254). -/
def execStxZp (nn : Byte) (s : State) : Outcome := .next (classW Regs.x (addrZp nn) s)

/-- STY addr, $8C (41_load_store_transfer.md R255). -/
def execStyAbs (addr : Word) (s : State) : Outcome := .next (classW Regs.y (addrAbs addr) s)

/-- STA addr, $8D (41_load_store_transfer.md R253). -/
def execStaAbs (addr : Word) (s : State) : Outcome := .next (classW Regs.a (addrAbs addr) s)

/-- STX addr, $8E (41_load_store_transfer.md R254). -/
def execStxAbs (addr : Word) (s : State) : Outcome := .next (classW Regs.x (addrAbs addr) s)

/-- STA (nn),Y, $91 (41_load_store_transfer.md R253). -/
def execStaIzy (nn : Byte) (s : State) : Outcome := .next (classW Regs.a (addrIzy true nn) s)

/-- STY nn,X, $94 (41_load_store_transfer.md R255). -/
def execStyZpx (nn : Byte) (s : State) : Outcome := .next (classW Regs.y (addrZpIndexed Regs.x nn) s)

/-- STA nn,X, $95 (41_load_store_transfer.md R253). -/
def execStaZpx (nn : Byte) (s : State) : Outcome := .next (classW Regs.a (addrZpIndexed Regs.x nn) s)

/-- STX nn,Y, $96 (41_load_store_transfer.md R254). -/
def execStxZpy (nn : Byte) (s : State) : Outcome := .next (classW Regs.x (addrZpIndexed Regs.y nn) s)

/-- STA addr,Y, $99 (41_load_store_transfer.md R253). -/
def execStaAby (addr : Word) (s : State) : Outcome := .next (classW Regs.a (addrAbsIndexed true Regs.y addr) s)

/-- STA addr,X, $9D (41_load_store_transfer.md R253). -/
def execStaAbx (addr : Word) (s : State) : Outcome := .next (classW Regs.a (addrAbsIndexed true Regs.x addr) s)

end Sys2Proof.Machine
end

