-- ==== Sys2Proof/Machine/Transfer.lean ====
section
/-! DEFINITION. The meanings of the register transfers (41_load_store_transfer.md R256 to R261): from the state after
the instruction's own bytes are fetched (`fetchInstr`) to its last cycle. -/

namespace Sys2Proof.Machine

/-- TXA, $8A (41_load_store_transfer.md R258). -/
def execTxa (s : State) : Outcome := .next (implied (fun r => r.loadA r.x) s)

/-- TYA, $98 (41_load_store_transfer.md R259). -/
def execTya (s : State) : Outcome := .next (implied (fun r => r.loadA r.y) s)

/-- TXS, $9A (41_load_store_transfer.md R261). -/
def execTxs (s : State) : Outcome := .next (implied (fun r => { r with s := r.x }) s)

/-- TAY, $A8 (41_load_store_transfer.md R257). -/
def execTay (s : State) : Outcome := .next (implied (fun r => r.loadY r.a) s)

/-- TAX, $AA (41_load_store_transfer.md R256). -/
def execTax (s : State) : Outcome := .next (implied (fun r => r.loadX r.a) s)

/-- TSX, $BA (41_load_store_transfer.md R260). -/
def execTsx (s : State) : Outcome := .next (implied (fun r => r.loadX r.s) s)

end Sys2Proof.Machine
end

