-- ==== Sys2Proof/Machine/Unstable.lean ====
section
/-! DEFINITION. The meanings of the unstable opcodes, fixed to one behaviour (46_unofficial.md R515 to R520): from the
state after the instruction's own bytes are fetched (`fetchInstr`) to its last cycle. -/

namespace Sys2Proof.Machine

/-- ANE #nn, $8B, non-documented (46_unofficial.md R515). -/
def execAneImm (nn : Byte) (s : State) : Outcome := .next (immediate Regs.ane nn s)

/-- SHA (nn),Y, $93, non-documented (46_unofficial.md R517). -/
def execShaIzy (nn : Byte) (s : State) : Outcome :=
  let p := zpPointer nn s
  .next (shStore (fun r => r.a &&& r.x) p.1 p.2.mach.regs.y p.2)

/-- TAS addr,Y, $9B, non-documented (46_unofficial.md R520). -/
def execTasAby (addr : Word) (s : State) : Outcome :=
  .next (updateRegs (fun r => { r with s := r.a &&& r.x }) (shStore (fun r => r.a &&& r.x) addr s.mach.regs.y s))

/-- SHY addr,X, $9C, non-documented (46_unofficial.md R519). -/
def execShyAbx (addr : Word) (s : State) : Outcome := .next (shStore Regs.y addr s.mach.regs.x s)

/-- SHX addr,Y, $9E, non-documented (46_unofficial.md R518). -/
def execShxAby (addr : Word) (s : State) : Outcome := .next (shStore Regs.x addr s.mach.regs.y s)

/-- SHA addr,Y, $9F, non-documented (46_unofficial.md R517). -/
def execShaAby (addr : Word) (s : State) : Outcome := .next (shStore (fun r => r.a &&& r.x) addr s.mach.regs.y s)

/-- LXA #nn, $AB, non-documented (46_unofficial.md R516). -/
def execLxaImm (nn : Byte) (s : State) : Outcome := .next (immediate Regs.lxa nn s)

end Sys2Proof.Machine
end

