-- ==== Sys2Proof/Syntax.lean ====
section
/-! DEFINITION. The instructions: one constructor for each of the 256 rows of spec/opcode_table.json
(30_encoding.md R155), with the operand bytes its format carries (R151). -/

namespace Sys2Proof

/-- The thirteen instruction formats, one per addressing mode (30_encoding.md R151). -/
inductive Mode where
  | implied | accumulator | immediate | zeroPage | zeroPageX | zeroPageY | relative
  | absolute | absoluteX | absoluteY | indirect | indexedIndirect | indirectIndexed
  deriving DecidableEq, Repr

/-- One constructor for each opcode (30_encoding.md R155). Operands: `nn` an 8-bit operand, `oo` a signed displacement,
`addr` the 16-bit operand `(hh, ll)`, `pad` the padding byte of BRK (R150). Each constructor's comment gives its opcode,
its format and the rule of its meaning. The constructors with operands stand first, each group in opcode order. -/
inductive Instr where
  /-- $00 BRK implied, R410. -/
  | brk (pad : Byte)
  /-- $01 ORA (zero page,X), R306. -/
  | oraIzx (nn : Byte)
  /-- $03 SLO (zero page,X) (non-documented), R501. -/
  | sloIzx (nn : Byte)
  /-- $04 NOP zero page (non-documented), R514. -/
  | nopZp04 (nn : Byte)
  /-- $05 ORA zero page, R306. -/
  | oraZp (nn : Byte)
  /-- $06 ASL zero page, R350. -/
  | aslZp (nn : Byte)
  /-- $07 SLO zero page (non-documented), R501. -/
  | sloZp (nn : Byte)
  /-- $09 ORA immediate, R306. -/
  | oraImm (nn : Byte)
  /-- $0B ANC immediate (non-documented), R509. -/
  | ancImm0B (nn : Byte)
  /-- $0C NOP absolute (non-documented), R514. -/
  | nopAbs0C (addr : Word)
  /-- $0D ORA absolute, R306. -/
  | oraAbs (addr : Word)
  /-- $0E ASL absolute, R350. -/
  | aslAbs (addr : Word)
  /-- $0F SLO absolute (non-documented), R501. -/
  | sloAbs (addr : Word)
  /-- $10 BPL relative, R406. -/
  | bpl (oo : Byte)
  /-- $11 ORA (zero page),Y, R306. -/
  | oraIzy (nn : Byte)
  /-- $13 SLO (zero page),Y (non-documented), R501. -/
  | sloIzy (nn : Byte)
  /-- $14 NOP zero page,X (non-documented), R514. -/
  | nopZpx14 (nn : Byte)
  /-- $15 ORA zero page,X, R306. -/
  | oraZpx (nn : Byte)
  /-- $16 ASL zero page,X, R350. -/
  | aslZpx (nn : Byte)
  /-- $17 SLO zero page,X (non-documented), R501. -/
  | sloZpx (nn : Byte)
  /-- $19 ORA absolute,Y, R306. -/
  | oraAby (addr : Word)
  /-- $1B SLO absolute,Y (non-documented), R501. -/
  | sloAby (addr : Word)
  /-- $1C NOP absolute,X (non-documented), R514. -/
  | nopAbx1C (addr : Word)
  /-- $1D ORA absolute,X, R306. -/
  | oraAbx (addr : Word)
  /-- $1E ASL absolute,X, R350. -/
  | aslAbx (addr : Word)
  /-- $1F SLO absolute,X (non-documented), R501. -/
  | sloAbx (addr : Word)
  /-- $20 JSR absolute, R411. -/
  | jsrAbs (addr : Word)
  /-- $21 AND (zero page,X), R305. -/
  | andIzx (nn : Byte)
  /-- $23 RLA (zero page,X) (non-documented), R502. -/
  | rlaIzx (nn : Byte)
  /-- $24 BIT zero page, R308. -/
  | bitZp (nn : Byte)
  /-- $25 AND zero page, R305. -/
  | andZp (nn : Byte)
  /-- $26 ROL zero page, R352. -/
  | rolZp (nn : Byte)
  /-- $27 RLA zero page (non-documented), R502. -/
  | rlaZp (nn : Byte)
  /-- $29 AND immediate, R305. -/
  | andImm (nn : Byte)
  /-- $2B ANC immediate (non-documented), R509. -/
  | ancImm2B (nn : Byte)
  /-- $2C BIT absolute, R308. -/
  | bitAbs (addr : Word)
  /-- $2D AND absolute, R305. -/
  | andAbs (addr : Word)
  /-- $2E ROL absolute, R352. -/
  | rolAbs (addr : Word)
  /-- $2F RLA absolute (non-documented), R502. -/
  | rlaAbs (addr : Word)
  /-- $30 BMI relative, R404. -/
  | bmi (oo : Byte)
  /-- $31 AND (zero page),Y, R305. -/
  | andIzy (nn : Byte)
  /-- $33 RLA (zero page),Y (non-documented), R502. -/
  | rlaIzy (nn : Byte)
  /-- $34 NOP zero page,X (non-documented), R514. -/
  | nopZpx34 (nn : Byte)
  /-- $35 AND zero page,X, R305. -/
  | andZpx (nn : Byte)
  /-- $36 ROL zero page,X, R352. -/
  | rolZpx (nn : Byte)
  /-- $37 RLA zero page,X (non-documented), R502. -/
  | rlaZpx (nn : Byte)
  /-- $39 AND absolute,Y, R305. -/
  | andAby (addr : Word)
  /-- $3B RLA absolute,Y (non-documented), R502. -/
  | rlaAby (addr : Word)
  /-- $3C NOP absolute,X (non-documented), R514. -/
  | nopAbx3C (addr : Word)
  /-- $3D AND absolute,X, R305. -/
  | andAbx (addr : Word)
  /-- $3E ROL absolute,X, R352. -/
  | rolAbx (addr : Word)
  /-- $3F RLA absolute,X (non-documented), R502. -/
  | rlaAbx (addr : Word)
  /-- $41 EOR (zero page,X), R307. -/
  | eorIzx (nn : Byte)
  /-- $43 SRE (zero page,X) (non-documented), R503. -/
  | sreIzx (nn : Byte)
  /-- $44 NOP zero page (non-documented), R514. -/
  | nopZp44 (nn : Byte)
  /-- $45 EOR zero page, R307. -/
  | eorZp (nn : Byte)
  /-- $46 LSR zero page, R351. -/
  | lsrZp (nn : Byte)
  /-- $47 SRE zero page (non-documented), R503. -/
  | sreZp (nn : Byte)
  /-- $49 EOR immediate, R307. -/
  | eorImm (nn : Byte)
  /-- $4B ALR immediate (non-documented), R510. -/
  | alrImm (nn : Byte)
  /-- $4C JMP absolute, R409. -/
  | jmpAbs (addr : Word)
  /-- $4D EOR absolute, R307. -/
  | eorAbs (addr : Word)
  /-- $4E LSR absolute, R351. -/
  | lsrAbs (addr : Word)
  /-- $4F SRE absolute (non-documented), R503. -/
  | sreAbs (addr : Word)
  /-- $50 BVC relative, R407. -/
  | bvc (oo : Byte)
  /-- $51 EOR (zero page),Y, R307. -/
  | eorIzy (nn : Byte)
  /-- $53 SRE (zero page),Y (non-documented), R503. -/
  | sreIzy (nn : Byte)
  /-- $54 NOP zero page,X (non-documented), R514. -/
  | nopZpx54 (nn : Byte)
  /-- $55 EOR zero page,X, R307. -/
  | eorZpx (nn : Byte)
  /-- $56 LSR zero page,X, R351. -/
  | lsrZpx (nn : Byte)
  /-- $57 SRE zero page,X (non-documented), R503. -/
  | sreZpx (nn : Byte)
  /-- $59 EOR absolute,Y, R307. -/
  | eorAby (addr : Word)
  /-- $5B SRE absolute,Y (non-documented), R503. -/
  | sreAby (addr : Word)
  /-- $5C NOP absolute,X (non-documented), R514. -/
  | nopAbx5C (addr : Word)
  /-- $5D EOR absolute,X, R307. -/
  | eorAbx (addr : Word)
  /-- $5E LSR absolute,X, R351. -/
  | lsrAbx (addr : Word)
  /-- $5F SRE absolute,X (non-documented), R503. -/
  | sreAbx (addr : Word)
  /-- $61 ADC (zero page,X), R303. -/
  | adcIzx (nn : Byte)
  /-- $63 RRA (zero page,X) (non-documented), R504. -/
  | rraIzx (nn : Byte)
  /-- $64 NOP zero page (non-documented), R514. -/
  | nopZp64 (nn : Byte)
  /-- $65 ADC zero page, R303. -/
  | adcZp (nn : Byte)
  /-- $66 ROR zero page, R353. -/
  | rorZp (nn : Byte)
  /-- $67 RRA zero page (non-documented), R504. -/
  | rraZp (nn : Byte)
  /-- $69 ADC immediate, R303. -/
  | adcImm (nn : Byte)
  /-- $6B ARR immediate (non-documented), R511. -/
  | arrImm (nn : Byte)
  /-- $6C JMP indirect, R409. -/
  | jmpInd (addr : Word)
  /-- $6D ADC absolute, R303. -/
  | adcAbs (addr : Word)
  /-- $6E ROR absolute, R353. -/
  | rorAbs (addr : Word)
  /-- $6F RRA absolute (non-documented), R504. -/
  | rraAbs (addr : Word)
  /-- $70 BVS relative, R408. -/
  | bvs (oo : Byte)
  /-- $71 ADC (zero page),Y, R303. -/
  | adcIzy (nn : Byte)
  /-- $73 RRA (zero page),Y (non-documented), R504. -/
  | rraIzy (nn : Byte)
  /-- $74 NOP zero page,X (non-documented), R514. -/
  | nopZpx74 (nn : Byte)
  /-- $75 ADC zero page,X, R303. -/
  | adcZpx (nn : Byte)
  /-- $76 ROR zero page,X, R353. -/
  | rorZpx (nn : Byte)
  /-- $77 RRA zero page,X (non-documented), R504. -/
  | rraZpx (nn : Byte)
  /-- $79 ADC absolute,Y, R303. -/
  | adcAby (addr : Word)
  /-- $7B RRA absolute,Y (non-documented), R504. -/
  | rraAby (addr : Word)
  /-- $7C NOP absolute,X (non-documented), R514. -/
  | nopAbx7C (addr : Word)
  /-- $7D ADC absolute,X, R303. -/
  | adcAbx (addr : Word)
  /-- $7E ROR absolute,X, R353. -/
  | rorAbx (addr : Word)
  /-- $7F RRA absolute,X (non-documented), R504. -/
  | rraAbx (addr : Word)
  /-- $80 NOP immediate (non-documented), R514. -/
  | nopImm80 (nn : Byte)
  /-- $81 STA (zero page,X), R253. -/
  | staIzx (nn : Byte)
  /-- $82 NOP immediate (non-documented), R514. -/
  | nopImm82 (nn : Byte)
  /-- $83 SAX (zero page,X) (non-documented), R505. -/
  | saxIzx (nn : Byte)
  /-- $84 STY zero page, R255. -/
  | styZp (nn : Byte)
  /-- $85 STA zero page, R253. -/
  | staZp (nn : Byte)
  /-- $86 STX zero page, R254. -/
  | stxZp (nn : Byte)
  /-- $87 SAX zero page (non-documented), R505. -/
  | saxZp (nn : Byte)
  /-- $89 NOP immediate (non-documented), R514. -/
  | nopImm89 (nn : Byte)
  /-- $8B ANE immediate (non-documented), R515. -/
  | aneImm (nn : Byte)
  /-- $8C STY absolute, R255. -/
  | styAbs (addr : Word)
  /-- $8D STA absolute, R253. -/
  | staAbs (addr : Word)
  /-- $8E STX absolute, R254. -/
  | stxAbs (addr : Word)
  /-- $8F SAX absolute (non-documented), R505. -/
  | saxAbs (addr : Word)
  /-- $90 BCC relative, R401. -/
  | bcc (oo : Byte)
  /-- $91 STA (zero page),Y, R253. -/
  | staIzy (nn : Byte)
  /-- $93 SHA (zero page),Y (non-documented), R517. -/
  | shaIzy (nn : Byte)
  /-- $94 STY zero page,X, R255. -/
  | styZpx (nn : Byte)
  /-- $95 STA zero page,X, R253. -/
  | staZpx (nn : Byte)
  /-- $96 STX zero page,Y, R254. -/
  | stxZpy (nn : Byte)
  /-- $97 SAX zero page,Y (non-documented), R505. -/
  | saxZpy (nn : Byte)
  /-- $99 STA absolute,Y, R253. -/
  | staAby (addr : Word)
  /-- $9B TAS absolute,Y (non-documented), R520. -/
  | tasAby (addr : Word)
  /-- $9C SHY absolute,X (non-documented), R519. -/
  | shyAbx (addr : Word)
  /-- $9D STA absolute,X, R253. -/
  | staAbx (addr : Word)
  /-- $9E SHX absolute,Y (non-documented), R518. -/
  | shxAby (addr : Word)
  /-- $9F SHA absolute,Y (non-documented), R517. -/
  | shaAby (addr : Word)
  /-- $A0 LDY immediate, R252. -/
  | ldyImm (nn : Byte)
  /-- $A1 LDA (zero page,X), R250. -/
  | ldaIzx (nn : Byte)
  /-- $A2 LDX immediate, R251. -/
  | ldxImm (nn : Byte)
  /-- $A3 LAX (zero page,X) (non-documented), R506. -/
  | laxIzx (nn : Byte)
  /-- $A4 LDY zero page, R252. -/
  | ldyZp (nn : Byte)
  /-- $A5 LDA zero page, R250. -/
  | ldaZp (nn : Byte)
  /-- $A6 LDX zero page, R251. -/
  | ldxZp (nn : Byte)
  /-- $A7 LAX zero page (non-documented), R506. -/
  | laxZp (nn : Byte)
  /-- $A9 LDA immediate, R250. -/
  | ldaImm (nn : Byte)
  /-- $AB LXA immediate (non-documented), R516. -/
  | lxaImm (nn : Byte)
  /-- $AC LDY absolute, R252. -/
  | ldyAbs (addr : Word)
  /-- $AD LDA absolute, R250. -/
  | ldaAbs (addr : Word)
  /-- $AE LDX absolute, R251. -/
  | ldxAbs (addr : Word)
  /-- $AF LAX absolute (non-documented), R506. -/
  | laxAbs (addr : Word)
  /-- $B0 BCS relative, R402. -/
  | bcs (oo : Byte)
  /-- $B1 LDA (zero page),Y, R250. -/
  | ldaIzy (nn : Byte)
  /-- $B3 LAX (zero page),Y (non-documented), R506. -/
  | laxIzy (nn : Byte)
  /-- $B4 LDY zero page,X, R252. -/
  | ldyZpx (nn : Byte)
  /-- $B5 LDA zero page,X, R250. -/
  | ldaZpx (nn : Byte)
  /-- $B6 LDX zero page,Y, R251. -/
  | ldxZpy (nn : Byte)
  /-- $B7 LAX zero page,Y (non-documented), R506. -/
  | laxZpy (nn : Byte)
  /-- $B9 LDA absolute,Y, R250. -/
  | ldaAby (addr : Word)
  /-- $BB LAS absolute,Y (non-documented), R521. -/
  | lasAby (addr : Word)
  /-- $BC LDY absolute,X, R252. -/
  | ldyAbx (addr : Word)
  /-- $BD LDA absolute,X, R250. -/
  | ldaAbx (addr : Word)
  /-- $BE LDX absolute,Y, R251. -/
  | ldxAby (addr : Word)
  /-- $BF LAX absolute,Y (non-documented), R506. -/
  | laxAby (addr : Word)
  /-- $C0 CPY immediate, R311. -/
  | cpyImm (nn : Byte)
  /-- $C1 CMP (zero page,X), R309. -/
  | cmpIzx (nn : Byte)
  /-- $C2 NOP immediate (non-documented), R514. -/
  | nopImmC2 (nn : Byte)
  /-- $C3 DCP (zero page,X) (non-documented), R507. -/
  | dcpIzx (nn : Byte)
  /-- $C4 CPY zero page, R311. -/
  | cpyZp (nn : Byte)
  /-- $C5 CMP zero page, R309. -/
  | cmpZp (nn : Byte)
  /-- $C6 DEC zero page, R313. -/
  | decZp (nn : Byte)
  /-- $C7 DCP zero page (non-documented), R507. -/
  | dcpZp (nn : Byte)
  /-- $C9 CMP immediate, R309. -/
  | cmpImm (nn : Byte)
  /-- $CB SBX immediate (non-documented), R512. -/
  | sbxImm (nn : Byte)
  /-- $CC CPY absolute, R311. -/
  | cpyAbs (addr : Word)
  /-- $CD CMP absolute, R309. -/
  | cmpAbs (addr : Word)
  /-- $CE DEC absolute, R313. -/
  | decAbs (addr : Word)
  /-- $CF DCP absolute (non-documented), R507. -/
  | dcpAbs (addr : Word)
  /-- $D0 BNE relative, R405. -/
  | bne (oo : Byte)
  /-- $D1 CMP (zero page),Y, R309. -/
  | cmpIzy (nn : Byte)
  /-- $D3 DCP (zero page),Y (non-documented), R507. -/
  | dcpIzy (nn : Byte)
  /-- $D4 NOP zero page,X (non-documented), R514. -/
  | nopZpxD4 (nn : Byte)
  /-- $D5 CMP zero page,X, R309. -/
  | cmpZpx (nn : Byte)
  /-- $D6 DEC zero page,X, R313. -/
  | decZpx (nn : Byte)
  /-- $D7 DCP zero page,X (non-documented), R507. -/
  | dcpZpx (nn : Byte)
  /-- $D9 CMP absolute,Y, R309. -/
  | cmpAby (addr : Word)
  /-- $DB DCP absolute,Y (non-documented), R507. -/
  | dcpAby (addr : Word)
  /-- $DC NOP absolute,X (non-documented), R514. -/
  | nopAbxDC (addr : Word)
  /-- $DD CMP absolute,X, R309. -/
  | cmpAbx (addr : Word)
  /-- $DE DEC absolute,X, R313. -/
  | decAbx (addr : Word)
  /-- $DF DCP absolute,X (non-documented), R507. -/
  | dcpAbx (addr : Word)
  /-- $E0 CPX immediate, R310. -/
  | cpxImm (nn : Byte)
  /-- $E1 SBC (zero page,X), R304. -/
  | sbcIzx (nn : Byte)
  /-- $E2 NOP immediate (non-documented), R514. -/
  | nopImmE2 (nn : Byte)
  /-- $E3 ISC (zero page,X) (non-documented), R508. -/
  | iscIzx (nn : Byte)
  /-- $E4 CPX zero page, R310. -/
  | cpxZp (nn : Byte)
  /-- $E5 SBC zero page, R304. -/
  | sbcZp (nn : Byte)
  /-- $E6 INC zero page, R312. -/
  | incZp (nn : Byte)
  /-- $E7 ISC zero page (non-documented), R508. -/
  | iscZp (nn : Byte)
  /-- $E9 SBC immediate, R304. -/
  | sbcImm (nn : Byte)
  /-- $EB SBC immediate (non-documented), R513. -/
  | sbcImmEB (nn : Byte)
  /-- $EC CPX absolute, R310. -/
  | cpxAbs (addr : Word)
  /-- $ED SBC absolute, R304. -/
  | sbcAbs (addr : Word)
  /-- $EE INC absolute, R312. -/
  | incAbs (addr : Word)
  /-- $EF ISC absolute (non-documented), R508. -/
  | iscAbs (addr : Word)
  /-- $F0 BEQ relative, R403. -/
  | beq (oo : Byte)
  /-- $F1 SBC (zero page),Y, R304. -/
  | sbcIzy (nn : Byte)
  /-- $F3 ISC (zero page),Y (non-documented), R508. -/
  | iscIzy (nn : Byte)
  /-- $F4 NOP zero page,X (non-documented), R514. -/
  | nopZpxF4 (nn : Byte)
  /-- $F5 SBC zero page,X, R304. -/
  | sbcZpx (nn : Byte)
  /-- $F6 INC zero page,X, R312. -/
  | incZpx (nn : Byte)
  /-- $F7 ISC zero page,X (non-documented), R508. -/
  | iscZpx (nn : Byte)
  /-- $F9 SBC absolute,Y, R304. -/
  | sbcAby (addr : Word)
  /-- $FB ISC absolute,Y (non-documented), R508. -/
  | iscAby (addr : Word)
  /-- $FC NOP absolute,X (non-documented), R514. -/
  | nopAbxFC (addr : Word)
  /-- $FD SBC absolute,X, R304. -/
  | sbcAbx (addr : Word)
  /-- $FE INC absolute,X, R312. -/
  | incAbx (addr : Word)
  /-- $FF ISC absolute,X (non-documented), R508. -/
  | iscAbx (addr : Word)
  /-- $02 JAM implied (non-documented), R540. -/
  | jam02
  /-- $08 PHP implied, R451. -/
  | php
  /-- $0A ASL accumulator, R350. -/
  | aslA
  /-- $12 JAM implied (non-documented), R540. -/
  | jam12
  /-- $18 CLC implied, R454. -/
  | clc
  /-- $1A NOP implied (non-documented), R514. -/
  | nopImp1A
  /-- $22 JAM implied (non-documented), R540. -/
  | jam22
  /-- $28 PLP implied, R453. -/
  | plp
  /-- $2A ROL accumulator, R352. -/
  | rolA
  /-- $32 JAM implied (non-documented), R540. -/
  | jam32
  /-- $38 SEC implied, R458. -/
  | sec
  /-- $3A NOP implied (non-documented), R514. -/
  | nopImp3A
  /-- $40 RTI implied, R413. -/
  | rti
  /-- $42 JAM implied (non-documented), R540. -/
  | jam42
  /-- $48 PHA implied, R450. -/
  | pha
  /-- $4A LSR accumulator, R351. -/
  | lsrA
  /-- $52 JAM implied (non-documented), R540. -/
  | jam52
  /-- $58 CLI implied, R456. -/
  | cli
  /-- $5A NOP implied (non-documented), R514. -/
  | nopImp5A
  /-- $60 RTS implied, R412. -/
  | rts
  /-- $62 JAM implied (non-documented), R540. -/
  | jam62
  /-- $68 PLA implied, R452. -/
  | pla
  /-- $6A ROR accumulator, R353. -/
  | rorA
  /-- $72 JAM implied (non-documented), R540. -/
  | jam72
  /-- $78 SEI implied, R460. -/
  | sei
  /-- $7A NOP implied (non-documented), R514. -/
  | nopImp7A
  /-- $88 DEY implied, R317. -/
  | dey
  /-- $8A TXA implied, R258. -/
  | txa
  /-- $92 JAM implied (non-documented), R540. -/
  | jam92
  /-- $98 TYA implied, R259. -/
  | tya
  /-- $9A TXS implied, R261. -/
  | txs
  /-- $A8 TAY implied, R257. -/
  | tay
  /-- $AA TAX implied, R256. -/
  | tax
  /-- $B2 JAM implied (non-documented), R540. -/
  | jamB2
  /-- $B8 CLV implied, R457. -/
  | clv
  /-- $BA TSX implied, R260. -/
  | tsx
  /-- $C8 INY implied, R315. -/
  | iny
  /-- $CA DEX implied, R316. -/
  | dex
  /-- $D2 JAM implied (non-documented), R540. -/
  | jamD2
  /-- $D8 CLD implied, R455. -/
  | cld
  /-- $DA NOP implied (non-documented), R514. -/
  | nopImpDA
  /-- $E8 INX implied, R314. -/
  | inx
  /-- $EA NOP implied, R461. -/
  | nop
  /-- $F2 JAM implied (non-documented), R540. -/
  | jamF2
  /-- $F8 SED implied, R459. -/
  | sed
  /-- $FA NOP implied (non-documented), R514. -/
  | nopImpFA
  deriving DecidableEq, Repr

/-- The addressing mode of an instruction (30_encoding.md R155). -/
def Instr.mode : Instr → Mode
  | .brk _ => .implied
  | .oraIzx _ => .indexedIndirect
  | .jam02 => .implied
  | .sloIzx _ => .indexedIndirect
  | .nopZp04 _ => .zeroPage
  | .oraZp _ => .zeroPage
  | .aslZp _ => .zeroPage
  | .sloZp _ => .zeroPage
  | .php => .implied
  | .oraImm _ => .immediate
  | .aslA => .accumulator
  | .ancImm0B _ => .immediate
  | .nopAbs0C _ => .absolute
  | .oraAbs _ => .absolute
  | .aslAbs _ => .absolute
  | .sloAbs _ => .absolute
  | .bpl _ => .relative
  | .oraIzy _ => .indirectIndexed
  | .jam12 => .implied
  | .sloIzy _ => .indirectIndexed
  | .nopZpx14 _ => .zeroPageX
  | .oraZpx _ => .zeroPageX
  | .aslZpx _ => .zeroPageX
  | .sloZpx _ => .zeroPageX
  | .clc => .implied
  | .oraAby _ => .absoluteY
  | .nopImp1A => .implied
  | .sloAby _ => .absoluteY
  | .nopAbx1C _ => .absoluteX
  | .oraAbx _ => .absoluteX
  | .aslAbx _ => .absoluteX
  | .sloAbx _ => .absoluteX
  | .jsrAbs _ => .absolute
  | .andIzx _ => .indexedIndirect
  | .jam22 => .implied
  | .rlaIzx _ => .indexedIndirect
  | .bitZp _ => .zeroPage
  | .andZp _ => .zeroPage
  | .rolZp _ => .zeroPage
  | .rlaZp _ => .zeroPage
  | .plp => .implied
  | .andImm _ => .immediate
  | .rolA => .accumulator
  | .ancImm2B _ => .immediate
  | .bitAbs _ => .absolute
  | .andAbs _ => .absolute
  | .rolAbs _ => .absolute
  | .rlaAbs _ => .absolute
  | .bmi _ => .relative
  | .andIzy _ => .indirectIndexed
  | .jam32 => .implied
  | .rlaIzy _ => .indirectIndexed
  | .nopZpx34 _ => .zeroPageX
  | .andZpx _ => .zeroPageX
  | .rolZpx _ => .zeroPageX
  | .rlaZpx _ => .zeroPageX
  | .sec => .implied
  | .andAby _ => .absoluteY
  | .nopImp3A => .implied
  | .rlaAby _ => .absoluteY
  | .nopAbx3C _ => .absoluteX
  | .andAbx _ => .absoluteX
  | .rolAbx _ => .absoluteX
  | .rlaAbx _ => .absoluteX
  | .rti => .implied
  | .eorIzx _ => .indexedIndirect
  | .jam42 => .implied
  | .sreIzx _ => .indexedIndirect
  | .nopZp44 _ => .zeroPage
  | .eorZp _ => .zeroPage
  | .lsrZp _ => .zeroPage
  | .sreZp _ => .zeroPage
  | .pha => .implied
  | .eorImm _ => .immediate
  | .lsrA => .accumulator
  | .alrImm _ => .immediate
  | .jmpAbs _ => .absolute
  | .eorAbs _ => .absolute
  | .lsrAbs _ => .absolute
  | .sreAbs _ => .absolute
  | .bvc _ => .relative
  | .eorIzy _ => .indirectIndexed
  | .jam52 => .implied
  | .sreIzy _ => .indirectIndexed
  | .nopZpx54 _ => .zeroPageX
  | .eorZpx _ => .zeroPageX
  | .lsrZpx _ => .zeroPageX
  | .sreZpx _ => .zeroPageX
  | .cli => .implied
  | .eorAby _ => .absoluteY
  | .nopImp5A => .implied
  | .sreAby _ => .absoluteY
  | .nopAbx5C _ => .absoluteX
  | .eorAbx _ => .absoluteX
  | .lsrAbx _ => .absoluteX
  | .sreAbx _ => .absoluteX
  | .rts => .implied
  | .adcIzx _ => .indexedIndirect
  | .jam62 => .implied
  | .rraIzx _ => .indexedIndirect
  | .nopZp64 _ => .zeroPage
  | .adcZp _ => .zeroPage
  | .rorZp _ => .zeroPage
  | .rraZp _ => .zeroPage
  | .pla => .implied
  | .adcImm _ => .immediate
  | .rorA => .accumulator
  | .arrImm _ => .immediate
  | .jmpInd _ => .indirect
  | .adcAbs _ => .absolute
  | .rorAbs _ => .absolute
  | .rraAbs _ => .absolute
  | .bvs _ => .relative
  | .adcIzy _ => .indirectIndexed
  | .jam72 => .implied
  | .rraIzy _ => .indirectIndexed
  | .nopZpx74 _ => .zeroPageX
  | .adcZpx _ => .zeroPageX
  | .rorZpx _ => .zeroPageX
  | .rraZpx _ => .zeroPageX
  | .sei => .implied
  | .adcAby _ => .absoluteY
  | .nopImp7A => .implied
  | .rraAby _ => .absoluteY
  | .nopAbx7C _ => .absoluteX
  | .adcAbx _ => .absoluteX
  | .rorAbx _ => .absoluteX
  | .rraAbx _ => .absoluteX
  | .nopImm80 _ => .immediate
  | .staIzx _ => .indexedIndirect
  | .nopImm82 _ => .immediate
  | .saxIzx _ => .indexedIndirect
  | .styZp _ => .zeroPage
  | .staZp _ => .zeroPage
  | .stxZp _ => .zeroPage
  | .saxZp _ => .zeroPage
  | .dey => .implied
  | .nopImm89 _ => .immediate
  | .txa => .implied
  | .aneImm _ => .immediate
  | .styAbs _ => .absolute
  | .staAbs _ => .absolute
  | .stxAbs _ => .absolute
  | .saxAbs _ => .absolute
  | .bcc _ => .relative
  | .staIzy _ => .indirectIndexed
  | .jam92 => .implied
  | .shaIzy _ => .indirectIndexed
  | .styZpx _ => .zeroPageX
  | .staZpx _ => .zeroPageX
  | .stxZpy _ => .zeroPageY
  | .saxZpy _ => .zeroPageY
  | .tya => .implied
  | .staAby _ => .absoluteY
  | .txs => .implied
  | .tasAby _ => .absoluteY
  | .shyAbx _ => .absoluteX
  | .staAbx _ => .absoluteX
  | .shxAby _ => .absoluteY
  | .shaAby _ => .absoluteY
  | .ldyImm _ => .immediate
  | .ldaIzx _ => .indexedIndirect
  | .ldxImm _ => .immediate
  | .laxIzx _ => .indexedIndirect
  | .ldyZp _ => .zeroPage
  | .ldaZp _ => .zeroPage
  | .ldxZp _ => .zeroPage
  | .laxZp _ => .zeroPage
  | .tay => .implied
  | .ldaImm _ => .immediate
  | .tax => .implied
  | .lxaImm _ => .immediate
  | .ldyAbs _ => .absolute
  | .ldaAbs _ => .absolute
  | .ldxAbs _ => .absolute
  | .laxAbs _ => .absolute
  | .bcs _ => .relative
  | .ldaIzy _ => .indirectIndexed
  | .jamB2 => .implied
  | .laxIzy _ => .indirectIndexed
  | .ldyZpx _ => .zeroPageX
  | .ldaZpx _ => .zeroPageX
  | .ldxZpy _ => .zeroPageY
  | .laxZpy _ => .zeroPageY
  | .clv => .implied
  | .ldaAby _ => .absoluteY
  | .tsx => .implied
  | .lasAby _ => .absoluteY
  | .ldyAbx _ => .absoluteX
  | .ldaAbx _ => .absoluteX
  | .ldxAby _ => .absoluteY
  | .laxAby _ => .absoluteY
  | .cpyImm _ => .immediate
  | .cmpIzx _ => .indexedIndirect
  | .nopImmC2 _ => .immediate
  | .dcpIzx _ => .indexedIndirect
  | .cpyZp _ => .zeroPage
  | .cmpZp _ => .zeroPage
  | .decZp _ => .zeroPage
  | .dcpZp _ => .zeroPage
  | .iny => .implied
  | .cmpImm _ => .immediate
  | .dex => .implied
  | .sbxImm _ => .immediate
  | .cpyAbs _ => .absolute
  | .cmpAbs _ => .absolute
  | .decAbs _ => .absolute
  | .dcpAbs _ => .absolute
  | .bne _ => .relative
  | .cmpIzy _ => .indirectIndexed
  | .jamD2 => .implied
  | .dcpIzy _ => .indirectIndexed
  | .nopZpxD4 _ => .zeroPageX
  | .cmpZpx _ => .zeroPageX
  | .decZpx _ => .zeroPageX
  | .dcpZpx _ => .zeroPageX
  | .cld => .implied
  | .cmpAby _ => .absoluteY
  | .nopImpDA => .implied
  | .dcpAby _ => .absoluteY
  | .nopAbxDC _ => .absoluteX
  | .cmpAbx _ => .absoluteX
  | .decAbx _ => .absoluteX
  | .dcpAbx _ => .absoluteX
  | .cpxImm _ => .immediate
  | .sbcIzx _ => .indexedIndirect
  | .nopImmE2 _ => .immediate
  | .iscIzx _ => .indexedIndirect
  | .cpxZp _ => .zeroPage
  | .sbcZp _ => .zeroPage
  | .incZp _ => .zeroPage
  | .iscZp _ => .zeroPage
  | .inx => .implied
  | .sbcImm _ => .immediate
  | .nop => .implied
  | .sbcImmEB _ => .immediate
  | .cpxAbs _ => .absolute
  | .sbcAbs _ => .absolute
  | .incAbs _ => .absolute
  | .iscAbs _ => .absolute
  | .beq _ => .relative
  | .sbcIzy _ => .indirectIndexed
  | .jamF2 => .implied
  | .iscIzy _ => .indirectIndexed
  | .nopZpxF4 _ => .zeroPageX
  | .sbcZpx _ => .zeroPageX
  | .incZpx _ => .zeroPageX
  | .iscZpx _ => .zeroPageX
  | .sed => .implied
  | .sbcAby _ => .absoluteY
  | .nopImpFA => .implied
  | .iscAby _ => .absoluteY
  | .nopAbxFC _ => .absoluteX
  | .sbcAbx _ => .absoluteX
  | .incAbx _ => .absoluteX
  | .iscAbx _ => .absoluteX

/-- The operand bytes of an instruction, in the order they follow the opcode (30_encoding.md R151):
a 16-bit operand low byte first. -/
def Instr.operands : Instr → List Byte
  | .brk pad => [pad]
  | .oraIzx nn => [nn]
  | .jam02 => []
  | .sloIzx nn => [nn]
  | .nopZp04 nn => [nn]
  | .oraZp nn => [nn]
  | .aslZp nn => [nn]
  | .sloZp nn => [nn]
  | .php => []
  | .oraImm nn => [nn]
  | .aslA => []
  | .ancImm0B nn => [nn]
  | .nopAbs0C addr => [lo addr, hi addr]
  | .oraAbs addr => [lo addr, hi addr]
  | .aslAbs addr => [lo addr, hi addr]
  | .sloAbs addr => [lo addr, hi addr]
  | .bpl oo => [oo]
  | .oraIzy nn => [nn]
  | .jam12 => []
  | .sloIzy nn => [nn]
  | .nopZpx14 nn => [nn]
  | .oraZpx nn => [nn]
  | .aslZpx nn => [nn]
  | .sloZpx nn => [nn]
  | .clc => []
  | .oraAby addr => [lo addr, hi addr]
  | .nopImp1A => []
  | .sloAby addr => [lo addr, hi addr]
  | .nopAbx1C addr => [lo addr, hi addr]
  | .oraAbx addr => [lo addr, hi addr]
  | .aslAbx addr => [lo addr, hi addr]
  | .sloAbx addr => [lo addr, hi addr]
  | .jsrAbs addr => [lo addr, hi addr]
  | .andIzx nn => [nn]
  | .jam22 => []
  | .rlaIzx nn => [nn]
  | .bitZp nn => [nn]
  | .andZp nn => [nn]
  | .rolZp nn => [nn]
  | .rlaZp nn => [nn]
  | .plp => []
  | .andImm nn => [nn]
  | .rolA => []
  | .ancImm2B nn => [nn]
  | .bitAbs addr => [lo addr, hi addr]
  | .andAbs addr => [lo addr, hi addr]
  | .rolAbs addr => [lo addr, hi addr]
  | .rlaAbs addr => [lo addr, hi addr]
  | .bmi oo => [oo]
  | .andIzy nn => [nn]
  | .jam32 => []
  | .rlaIzy nn => [nn]
  | .nopZpx34 nn => [nn]
  | .andZpx nn => [nn]
  | .rolZpx nn => [nn]
  | .rlaZpx nn => [nn]
  | .sec => []
  | .andAby addr => [lo addr, hi addr]
  | .nopImp3A => []
  | .rlaAby addr => [lo addr, hi addr]
  | .nopAbx3C addr => [lo addr, hi addr]
  | .andAbx addr => [lo addr, hi addr]
  | .rolAbx addr => [lo addr, hi addr]
  | .rlaAbx addr => [lo addr, hi addr]
  | .rti => []
  | .eorIzx nn => [nn]
  | .jam42 => []
  | .sreIzx nn => [nn]
  | .nopZp44 nn => [nn]
  | .eorZp nn => [nn]
  | .lsrZp nn => [nn]
  | .sreZp nn => [nn]
  | .pha => []
  | .eorImm nn => [nn]
  | .lsrA => []
  | .alrImm nn => [nn]
  | .jmpAbs addr => [lo addr, hi addr]
  | .eorAbs addr => [lo addr, hi addr]
  | .lsrAbs addr => [lo addr, hi addr]
  | .sreAbs addr => [lo addr, hi addr]
  | .bvc oo => [oo]
  | .eorIzy nn => [nn]
  | .jam52 => []
  | .sreIzy nn => [nn]
  | .nopZpx54 nn => [nn]
  | .eorZpx nn => [nn]
  | .lsrZpx nn => [nn]
  | .sreZpx nn => [nn]
  | .cli => []
  | .eorAby addr => [lo addr, hi addr]
  | .nopImp5A => []
  | .sreAby addr => [lo addr, hi addr]
  | .nopAbx5C addr => [lo addr, hi addr]
  | .eorAbx addr => [lo addr, hi addr]
  | .lsrAbx addr => [lo addr, hi addr]
  | .sreAbx addr => [lo addr, hi addr]
  | .rts => []
  | .adcIzx nn => [nn]
  | .jam62 => []
  | .rraIzx nn => [nn]
  | .nopZp64 nn => [nn]
  | .adcZp nn => [nn]
  | .rorZp nn => [nn]
  | .rraZp nn => [nn]
  | .pla => []
  | .adcImm nn => [nn]
  | .rorA => []
  | .arrImm nn => [nn]
  | .jmpInd addr => [lo addr, hi addr]
  | .adcAbs addr => [lo addr, hi addr]
  | .rorAbs addr => [lo addr, hi addr]
  | .rraAbs addr => [lo addr, hi addr]
  | .bvs oo => [oo]
  | .adcIzy nn => [nn]
  | .jam72 => []
  | .rraIzy nn => [nn]
  | .nopZpx74 nn => [nn]
  | .adcZpx nn => [nn]
  | .rorZpx nn => [nn]
  | .rraZpx nn => [nn]
  | .sei => []
  | .adcAby addr => [lo addr, hi addr]
  | .nopImp7A => []
  | .rraAby addr => [lo addr, hi addr]
  | .nopAbx7C addr => [lo addr, hi addr]
  | .adcAbx addr => [lo addr, hi addr]
  | .rorAbx addr => [lo addr, hi addr]
  | .rraAbx addr => [lo addr, hi addr]
  | .nopImm80 nn => [nn]
  | .staIzx nn => [nn]
  | .nopImm82 nn => [nn]
  | .saxIzx nn => [nn]
  | .styZp nn => [nn]
  | .staZp nn => [nn]
  | .stxZp nn => [nn]
  | .saxZp nn => [nn]
  | .dey => []
  | .nopImm89 nn => [nn]
  | .txa => []
  | .aneImm nn => [nn]
  | .styAbs addr => [lo addr, hi addr]
  | .staAbs addr => [lo addr, hi addr]
  | .stxAbs addr => [lo addr, hi addr]
  | .saxAbs addr => [lo addr, hi addr]
  | .bcc oo => [oo]
  | .staIzy nn => [nn]
  | .jam92 => []
  | .shaIzy nn => [nn]
  | .styZpx nn => [nn]
  | .staZpx nn => [nn]
  | .stxZpy nn => [nn]
  | .saxZpy nn => [nn]
  | .tya => []
  | .staAby addr => [lo addr, hi addr]
  | .txs => []
  | .tasAby addr => [lo addr, hi addr]
  | .shyAbx addr => [lo addr, hi addr]
  | .staAbx addr => [lo addr, hi addr]
  | .shxAby addr => [lo addr, hi addr]
  | .shaAby addr => [lo addr, hi addr]
  | .ldyImm nn => [nn]
  | .ldaIzx nn => [nn]
  | .ldxImm nn => [nn]
  | .laxIzx nn => [nn]
  | .ldyZp nn => [nn]
  | .ldaZp nn => [nn]
  | .ldxZp nn => [nn]
  | .laxZp nn => [nn]
  | .tay => []
  | .ldaImm nn => [nn]
  | .tax => []
  | .lxaImm nn => [nn]
  | .ldyAbs addr => [lo addr, hi addr]
  | .ldaAbs addr => [lo addr, hi addr]
  | .ldxAbs addr => [lo addr, hi addr]
  | .laxAbs addr => [lo addr, hi addr]
  | .bcs oo => [oo]
  | .ldaIzy nn => [nn]
  | .jamB2 => []
  | .laxIzy nn => [nn]
  | .ldyZpx nn => [nn]
  | .ldaZpx nn => [nn]
  | .ldxZpy nn => [nn]
  | .laxZpy nn => [nn]
  | .clv => []
  | .ldaAby addr => [lo addr, hi addr]
  | .tsx => []
  | .lasAby addr => [lo addr, hi addr]
  | .ldyAbx addr => [lo addr, hi addr]
  | .ldaAbx addr => [lo addr, hi addr]
  | .ldxAby addr => [lo addr, hi addr]
  | .laxAby addr => [lo addr, hi addr]
  | .cpyImm nn => [nn]
  | .cmpIzx nn => [nn]
  | .nopImmC2 nn => [nn]
  | .dcpIzx nn => [nn]
  | .cpyZp nn => [nn]
  | .cmpZp nn => [nn]
  | .decZp nn => [nn]
  | .dcpZp nn => [nn]
  | .iny => []
  | .cmpImm nn => [nn]
  | .dex => []
  | .sbxImm nn => [nn]
  | .cpyAbs addr => [lo addr, hi addr]
  | .cmpAbs addr => [lo addr, hi addr]
  | .decAbs addr => [lo addr, hi addr]
  | .dcpAbs addr => [lo addr, hi addr]
  | .bne oo => [oo]
  | .cmpIzy nn => [nn]
  | .jamD2 => []
  | .dcpIzy nn => [nn]
  | .nopZpxD4 nn => [nn]
  | .cmpZpx nn => [nn]
  | .decZpx nn => [nn]
  | .dcpZpx nn => [nn]
  | .cld => []
  | .cmpAby addr => [lo addr, hi addr]
  | .nopImpDA => []
  | .dcpAby addr => [lo addr, hi addr]
  | .nopAbxDC addr => [lo addr, hi addr]
  | .cmpAbx addr => [lo addr, hi addr]
  | .decAbx addr => [lo addr, hi addr]
  | .dcpAbx addr => [lo addr, hi addr]
  | .cpxImm nn => [nn]
  | .sbcIzx nn => [nn]
  | .nopImmE2 nn => [nn]
  | .iscIzx nn => [nn]
  | .cpxZp nn => [nn]
  | .sbcZp nn => [nn]
  | .incZp nn => [nn]
  | .iscZp nn => [nn]
  | .inx => []
  | .sbcImm nn => [nn]
  | .nop => []
  | .sbcImmEB nn => [nn]
  | .cpxAbs addr => [lo addr, hi addr]
  | .sbcAbs addr => [lo addr, hi addr]
  | .incAbs addr => [lo addr, hi addr]
  | .iscAbs addr => [lo addr, hi addr]
  | .beq oo => [oo]
  | .sbcIzy nn => [nn]
  | .jamF2 => []
  | .iscIzy nn => [nn]
  | .nopZpxF4 nn => [nn]
  | .sbcZpx nn => [nn]
  | .incZpx nn => [nn]
  | .iscZpx nn => [nn]
  | .sed => []
  | .sbcAby addr => [lo addr, hi addr]
  | .nopImpFA => []
  | .iscAby addr => [lo addr, hi addr]
  | .nopAbxFC addr => [lo addr, hi addr]
  | .sbcAbx addr => [lo addr, hi addr]
  | .incAbx addr => [lo addr, hi addr]
  | .iscAbx addr => [lo addr, hi addr]

end Sys2Proof
end

