-- ==== Sys2Proof/Machine/Dispatch.lean ====
section
/-! DEFINITION. The meaning of every instruction of 30_encoding.md R155: one arm per constructor of `Instr`. -/

namespace Sys2Proof.Machine

def exec (i : Instr) (s : State) : Host.Outcome State Fault Refusal :=
  match i with
  | .brk pad => Sys2Proof.Machine.execBrk pad s
  | .oraIzx nn => Sys2Proof.Machine.execOraIzx nn s
  | .jam02 => Sys2Proof.Machine.execJam02 s
  | .sloIzx nn => Sys2Proof.Machine.execSloIzx nn s
  | .nopZp04 nn => Sys2Proof.Machine.execNopZp04 nn s
  | .oraZp nn => Sys2Proof.Machine.execOraZp nn s
  | .aslZp nn => Sys2Proof.Machine.execAslZp nn s
  | .sloZp nn => Sys2Proof.Machine.execSloZp nn s
  | .php => Sys2Proof.Machine.execPhp s
  | .oraImm nn => Sys2Proof.Machine.execOraImm nn s
  | .aslA => Sys2Proof.Machine.execAslA s
  | .ancImm0B nn => Sys2Proof.Machine.execAncImm0B nn s
  | .nopAbs0C addr => Sys2Proof.Machine.execNopAbs0C addr s
  | .oraAbs addr => Sys2Proof.Machine.execOraAbs addr s
  | .aslAbs addr => Sys2Proof.Machine.execAslAbs addr s
  | .sloAbs addr => Sys2Proof.Machine.execSloAbs addr s
  | .bpl oo => Sys2Proof.Machine.execBpl oo s
  | .oraIzy nn => Sys2Proof.Machine.execOraIzy nn s
  | .jam12 => Sys2Proof.Machine.execJam12 s
  | .sloIzy nn => Sys2Proof.Machine.execSloIzy nn s
  | .nopZpx14 nn => Sys2Proof.Machine.execNopZpx14 nn s
  | .oraZpx nn => Sys2Proof.Machine.execOraZpx nn s
  | .aslZpx nn => Sys2Proof.Machine.execAslZpx nn s
  | .sloZpx nn => Sys2Proof.Machine.execSloZpx nn s
  | .clc => Sys2Proof.Machine.execClc s
  | .oraAby addr => Sys2Proof.Machine.execOraAby addr s
  | .nopImp1A => Sys2Proof.Machine.execNopImp1A s
  | .sloAby addr => Sys2Proof.Machine.execSloAby addr s
  | .nopAbx1C addr => Sys2Proof.Machine.execNopAbx1C addr s
  | .oraAbx addr => Sys2Proof.Machine.execOraAbx addr s
  | .aslAbx addr => Sys2Proof.Machine.execAslAbx addr s
  | .sloAbx addr => Sys2Proof.Machine.execSloAbx addr s
  | .jsrAbs addr => Sys2Proof.Machine.execJsrAbs addr s
  | .andIzx nn => Sys2Proof.Machine.execAndIzx nn s
  | .jam22 => Sys2Proof.Machine.execJam22 s
  | .rlaIzx nn => Sys2Proof.Machine.execRlaIzx nn s
  | .bitZp nn => Sys2Proof.Machine.execBitZp nn s
  | .andZp nn => Sys2Proof.Machine.execAndZp nn s
  | .rolZp nn => Sys2Proof.Machine.execRolZp nn s
  | .rlaZp nn => Sys2Proof.Machine.execRlaZp nn s
  | .plp => Sys2Proof.Machine.execPlp s
  | .andImm nn => Sys2Proof.Machine.execAndImm nn s
  | .rolA => Sys2Proof.Machine.execRolA s
  | .ancImm2B nn => Sys2Proof.Machine.execAncImm2B nn s
  | .bitAbs addr => Sys2Proof.Machine.execBitAbs addr s
  | .andAbs addr => Sys2Proof.Machine.execAndAbs addr s
  | .rolAbs addr => Sys2Proof.Machine.execRolAbs addr s
  | .rlaAbs addr => Sys2Proof.Machine.execRlaAbs addr s
  | .bmi oo => Sys2Proof.Machine.execBmi oo s
  | .andIzy nn => Sys2Proof.Machine.execAndIzy nn s
  | .jam32 => Sys2Proof.Machine.execJam32 s
  | .rlaIzy nn => Sys2Proof.Machine.execRlaIzy nn s
  | .nopZpx34 nn => Sys2Proof.Machine.execNopZpx34 nn s
  | .andZpx nn => Sys2Proof.Machine.execAndZpx nn s
  | .rolZpx nn => Sys2Proof.Machine.execRolZpx nn s
  | .rlaZpx nn => Sys2Proof.Machine.execRlaZpx nn s
  | .sec => Sys2Proof.Machine.execSec s
  | .andAby addr => Sys2Proof.Machine.execAndAby addr s
  | .nopImp3A => Sys2Proof.Machine.execNopImp3A s
  | .rlaAby addr => Sys2Proof.Machine.execRlaAby addr s
  | .nopAbx3C addr => Sys2Proof.Machine.execNopAbx3C addr s
  | .andAbx addr => Sys2Proof.Machine.execAndAbx addr s
  | .rolAbx addr => Sys2Proof.Machine.execRolAbx addr s
  | .rlaAbx addr => Sys2Proof.Machine.execRlaAbx addr s
  | .rti => Sys2Proof.Machine.execRti s
  | .eorIzx nn => Sys2Proof.Machine.execEorIzx nn s
  | .jam42 => Sys2Proof.Machine.execJam42 s
  | .sreIzx nn => Sys2Proof.Machine.execSreIzx nn s
  | .nopZp44 nn => Sys2Proof.Machine.execNopZp44 nn s
  | .eorZp nn => Sys2Proof.Machine.execEorZp nn s
  | .lsrZp nn => Sys2Proof.Machine.execLsrZp nn s
  | .sreZp nn => Sys2Proof.Machine.execSreZp nn s
  | .pha => Sys2Proof.Machine.execPha s
  | .eorImm nn => Sys2Proof.Machine.execEorImm nn s
  | .lsrA => Sys2Proof.Machine.execLsrA s
  | .alrImm nn => Sys2Proof.Machine.execAlrImm nn s
  | .jmpAbs addr => Sys2Proof.Machine.execJmpAbs addr s
  | .eorAbs addr => Sys2Proof.Machine.execEorAbs addr s
  | .lsrAbs addr => Sys2Proof.Machine.execLsrAbs addr s
  | .sreAbs addr => Sys2Proof.Machine.execSreAbs addr s
  | .bvc oo => Sys2Proof.Machine.execBvc oo s
  | .eorIzy nn => Sys2Proof.Machine.execEorIzy nn s
  | .jam52 => Sys2Proof.Machine.execJam52 s
  | .sreIzy nn => Sys2Proof.Machine.execSreIzy nn s
  | .nopZpx54 nn => Sys2Proof.Machine.execNopZpx54 nn s
  | .eorZpx nn => Sys2Proof.Machine.execEorZpx nn s
  | .lsrZpx nn => Sys2Proof.Machine.execLsrZpx nn s
  | .sreZpx nn => Sys2Proof.Machine.execSreZpx nn s
  | .cli => Sys2Proof.Machine.execCli s
  | .eorAby addr => Sys2Proof.Machine.execEorAby addr s
  | .nopImp5A => Sys2Proof.Machine.execNopImp5A s
  | .sreAby addr => Sys2Proof.Machine.execSreAby addr s
  | .nopAbx5C addr => Sys2Proof.Machine.execNopAbx5C addr s
  | .eorAbx addr => Sys2Proof.Machine.execEorAbx addr s
  | .lsrAbx addr => Sys2Proof.Machine.execLsrAbx addr s
  | .sreAbx addr => Sys2Proof.Machine.execSreAbx addr s
  | .rts => Sys2Proof.Machine.execRts s
  | .adcIzx nn => Sys2Proof.Machine.execAdcIzx nn s
  | .jam62 => Sys2Proof.Machine.execJam62 s
  | .rraIzx nn => Sys2Proof.Machine.execRraIzx nn s
  | .nopZp64 nn => Sys2Proof.Machine.execNopZp64 nn s
  | .adcZp nn => Sys2Proof.Machine.execAdcZp nn s
  | .rorZp nn => Sys2Proof.Machine.execRorZp nn s
  | .rraZp nn => Sys2Proof.Machine.execRraZp nn s
  | .pla => Sys2Proof.Machine.execPla s
  | .adcImm nn => Sys2Proof.Machine.execAdcImm nn s
  | .rorA => Sys2Proof.Machine.execRorA s
  | .arrImm nn => Sys2Proof.Machine.execArrImm nn s
  | .jmpInd addr => Sys2Proof.Machine.execJmpInd addr s
  | .adcAbs addr => Sys2Proof.Machine.execAdcAbs addr s
  | .rorAbs addr => Sys2Proof.Machine.execRorAbs addr s
  | .rraAbs addr => Sys2Proof.Machine.execRraAbs addr s
  | .bvs oo => Sys2Proof.Machine.execBvs oo s
  | .adcIzy nn => Sys2Proof.Machine.execAdcIzy nn s
  | .jam72 => Sys2Proof.Machine.execJam72 s
  | .rraIzy nn => Sys2Proof.Machine.execRraIzy nn s
  | .nopZpx74 nn => Sys2Proof.Machine.execNopZpx74 nn s
  | .adcZpx nn => Sys2Proof.Machine.execAdcZpx nn s
  | .rorZpx nn => Sys2Proof.Machine.execRorZpx nn s
  | .rraZpx nn => Sys2Proof.Machine.execRraZpx nn s
  | .sei => Sys2Proof.Machine.execSei s
  | .adcAby addr => Sys2Proof.Machine.execAdcAby addr s
  | .nopImp7A => Sys2Proof.Machine.execNopImp7A s
  | .rraAby addr => Sys2Proof.Machine.execRraAby addr s
  | .nopAbx7C addr => Sys2Proof.Machine.execNopAbx7C addr s
  | .adcAbx addr => Sys2Proof.Machine.execAdcAbx addr s
  | .rorAbx addr => Sys2Proof.Machine.execRorAbx addr s
  | .rraAbx addr => Sys2Proof.Machine.execRraAbx addr s
  | .nopImm80 nn => Sys2Proof.Machine.execNopImm80 nn s
  | .staIzx nn => Sys2Proof.Machine.execStaIzx nn s
  | .nopImm82 nn => Sys2Proof.Machine.execNopImm82 nn s
  | .saxIzx nn => Sys2Proof.Machine.execSaxIzx nn s
  | .styZp nn => Sys2Proof.Machine.execStyZp nn s
  | .staZp nn => Sys2Proof.Machine.execStaZp nn s
  | .stxZp nn => Sys2Proof.Machine.execStxZp nn s
  | .saxZp nn => Sys2Proof.Machine.execSaxZp nn s
  | .dey => Sys2Proof.Machine.execDey s
  | .nopImm89 nn => Sys2Proof.Machine.execNopImm89 nn s
  | .txa => Sys2Proof.Machine.execTxa s
  | .aneImm nn => Sys2Proof.Machine.execAneImm nn s
  | .styAbs addr => Sys2Proof.Machine.execStyAbs addr s
  | .staAbs addr => Sys2Proof.Machine.execStaAbs addr s
  | .stxAbs addr => Sys2Proof.Machine.execStxAbs addr s
  | .saxAbs addr => Sys2Proof.Machine.execSaxAbs addr s
  | .bcc oo => Sys2Proof.Machine.execBcc oo s
  | .staIzy nn => Sys2Proof.Machine.execStaIzy nn s
  | .jam92 => Sys2Proof.Machine.execJam92 s
  | .shaIzy nn => Sys2Proof.Machine.execShaIzy nn s
  | .styZpx nn => Sys2Proof.Machine.execStyZpx nn s
  | .staZpx nn => Sys2Proof.Machine.execStaZpx nn s
  | .stxZpy nn => Sys2Proof.Machine.execStxZpy nn s
  | .saxZpy nn => Sys2Proof.Machine.execSaxZpy nn s
  | .tya => Sys2Proof.Machine.execTya s
  | .staAby addr => Sys2Proof.Machine.execStaAby addr s
  | .txs => Sys2Proof.Machine.execTxs s
  | .tasAby addr => Sys2Proof.Machine.execTasAby addr s
  | .shyAbx addr => Sys2Proof.Machine.execShyAbx addr s
  | .staAbx addr => Sys2Proof.Machine.execStaAbx addr s
  | .shxAby addr => Sys2Proof.Machine.execShxAby addr s
  | .shaAby addr => Sys2Proof.Machine.execShaAby addr s
  | .ldyImm nn => Sys2Proof.Machine.execLdyImm nn s
  | .ldaIzx nn => Sys2Proof.Machine.execLdaIzx nn s
  | .ldxImm nn => Sys2Proof.Machine.execLdxImm nn s
  | .laxIzx nn => Sys2Proof.Machine.execLaxIzx nn s
  | .ldyZp nn => Sys2Proof.Machine.execLdyZp nn s
  | .ldaZp nn => Sys2Proof.Machine.execLdaZp nn s
  | .ldxZp nn => Sys2Proof.Machine.execLdxZp nn s
  | .laxZp nn => Sys2Proof.Machine.execLaxZp nn s
  | .tay => Sys2Proof.Machine.execTay s
  | .ldaImm nn => Sys2Proof.Machine.execLdaImm nn s
  | .tax => Sys2Proof.Machine.execTax s
  | .lxaImm nn => Sys2Proof.Machine.execLxaImm nn s
  | .ldyAbs addr => Sys2Proof.Machine.execLdyAbs addr s
  | .ldaAbs addr => Sys2Proof.Machine.execLdaAbs addr s
  | .ldxAbs addr => Sys2Proof.Machine.execLdxAbs addr s
  | .laxAbs addr => Sys2Proof.Machine.execLaxAbs addr s
  | .bcs oo => Sys2Proof.Machine.execBcs oo s
  | .ldaIzy nn => Sys2Proof.Machine.execLdaIzy nn s
  | .jamB2 => Sys2Proof.Machine.execJamB2 s
  | .laxIzy nn => Sys2Proof.Machine.execLaxIzy nn s
  | .ldyZpx nn => Sys2Proof.Machine.execLdyZpx nn s
  | .ldaZpx nn => Sys2Proof.Machine.execLdaZpx nn s
  | .ldxZpy nn => Sys2Proof.Machine.execLdxZpy nn s
  | .laxZpy nn => Sys2Proof.Machine.execLaxZpy nn s
  | .clv => Sys2Proof.Machine.execClv s
  | .ldaAby addr => Sys2Proof.Machine.execLdaAby addr s
  | .tsx => Sys2Proof.Machine.execTsx s
  | .lasAby addr => Sys2Proof.Machine.execLasAby addr s
  | .ldyAbx addr => Sys2Proof.Machine.execLdyAbx addr s
  | .ldaAbx addr => Sys2Proof.Machine.execLdaAbx addr s
  | .ldxAby addr => Sys2Proof.Machine.execLdxAby addr s
  | .laxAby addr => Sys2Proof.Machine.execLaxAby addr s
  | .cpyImm nn => Sys2Proof.Machine.execCpyImm nn s
  | .cmpIzx nn => Sys2Proof.Machine.execCmpIzx nn s
  | .nopImmC2 nn => Sys2Proof.Machine.execNopImmC2 nn s
  | .dcpIzx nn => Sys2Proof.Machine.execDcpIzx nn s
  | .cpyZp nn => Sys2Proof.Machine.execCpyZp nn s
  | .cmpZp nn => Sys2Proof.Machine.execCmpZp nn s
  | .decZp nn => Sys2Proof.Machine.execDecZp nn s
  | .dcpZp nn => Sys2Proof.Machine.execDcpZp nn s
  | .iny => Sys2Proof.Machine.execIny s
  | .cmpImm nn => Sys2Proof.Machine.execCmpImm nn s
  | .dex => Sys2Proof.Machine.execDex s
  | .sbxImm nn => Sys2Proof.Machine.execSbxImm nn s
  | .cpyAbs addr => Sys2Proof.Machine.execCpyAbs addr s
  | .cmpAbs addr => Sys2Proof.Machine.execCmpAbs addr s
  | .decAbs addr => Sys2Proof.Machine.execDecAbs addr s
  | .dcpAbs addr => Sys2Proof.Machine.execDcpAbs addr s
  | .bne oo => Sys2Proof.Machine.execBne oo s
  | .cmpIzy nn => Sys2Proof.Machine.execCmpIzy nn s
  | .jamD2 => Sys2Proof.Machine.execJamD2 s
  | .dcpIzy nn => Sys2Proof.Machine.execDcpIzy nn s
  | .nopZpxD4 nn => Sys2Proof.Machine.execNopZpxD4 nn s
  | .cmpZpx nn => Sys2Proof.Machine.execCmpZpx nn s
  | .decZpx nn => Sys2Proof.Machine.execDecZpx nn s
  | .dcpZpx nn => Sys2Proof.Machine.execDcpZpx nn s
  | .cld => Sys2Proof.Machine.execCld s
  | .cmpAby addr => Sys2Proof.Machine.execCmpAby addr s
  | .nopImpDA => Sys2Proof.Machine.execNopImpDA s
  | .dcpAby addr => Sys2Proof.Machine.execDcpAby addr s
  | .nopAbxDC addr => Sys2Proof.Machine.execNopAbxDC addr s
  | .cmpAbx addr => Sys2Proof.Machine.execCmpAbx addr s
  | .decAbx addr => Sys2Proof.Machine.execDecAbx addr s
  | .dcpAbx addr => Sys2Proof.Machine.execDcpAbx addr s
  | .cpxImm nn => Sys2Proof.Machine.execCpxImm nn s
  | .sbcIzx nn => Sys2Proof.Machine.execSbcIzx nn s
  | .nopImmE2 nn => Sys2Proof.Machine.execNopImmE2 nn s
  | .iscIzx nn => Sys2Proof.Machine.execIscIzx nn s
  | .cpxZp nn => Sys2Proof.Machine.execCpxZp nn s
  | .sbcZp nn => Sys2Proof.Machine.execSbcZp nn s
  | .incZp nn => Sys2Proof.Machine.execIncZp nn s
  | .iscZp nn => Sys2Proof.Machine.execIscZp nn s
  | .inx => Sys2Proof.Machine.execInx s
  | .sbcImm nn => Sys2Proof.Machine.execSbcImm nn s
  | .nop => Sys2Proof.Machine.execNop s
  | .sbcImmEB nn => Sys2Proof.Machine.execSbcImmEB nn s
  | .cpxAbs addr => Sys2Proof.Machine.execCpxAbs addr s
  | .sbcAbs addr => Sys2Proof.Machine.execSbcAbs addr s
  | .incAbs addr => Sys2Proof.Machine.execIncAbs addr s
  | .iscAbs addr => Sys2Proof.Machine.execIscAbs addr s
  | .beq oo => Sys2Proof.Machine.execBeq oo s
  | .sbcIzy nn => Sys2Proof.Machine.execSbcIzy nn s
  | .jamF2 => Sys2Proof.Machine.execJamF2 s
  | .iscIzy nn => Sys2Proof.Machine.execIscIzy nn s
  | .nopZpxF4 nn => Sys2Proof.Machine.execNopZpxF4 nn s
  | .sbcZpx nn => Sys2Proof.Machine.execSbcZpx nn s
  | .incZpx nn => Sys2Proof.Machine.execIncZpx nn s
  | .iscZpx nn => Sys2Proof.Machine.execIscZpx nn s
  | .sed => Sys2Proof.Machine.execSed s
  | .sbcAby addr => Sys2Proof.Machine.execSbcAby addr s
  | .nopImpFA => Sys2Proof.Machine.execNopImpFA s
  | .iscAby addr => Sys2Proof.Machine.execIscAby addr s
  | .nopAbxFC addr => Sys2Proof.Machine.execNopAbxFC addr s
  | .sbcAbx addr => Sys2Proof.Machine.execSbcAbx addr s
  | .incAbx addr => Sys2Proof.Machine.execIncAbx addr s
  | .iscAbx addr => Sys2Proof.Machine.execIscAbx addr s

end Sys2Proof.Machine
end

