-- ==== Sys2Proof/WellFormed.lean ====
section
/-! DEFINITION. Well-formedness of instructions and of the bytes that spell one. The operand types of `Instr` already
hold every value an encoding admits (30_encoding.md R158: the decoder is total), so the check left for an instruction
is that it carries as many operand bytes as its format has (R150, R151); the check that can fail is the one on bytes. -/

namespace Sys2Proof

/-- How many operand bytes a format has (30_encoding.md R151). -/
def Mode.operandBytes : Mode → Nat
  | .implied | .accumulator => 0
  | .immediate | .zeroPage | .zeroPageX | .zeroPageY | .relative | .indexedIndirect | .indirectIndexed => 1
  | .absolute | .absoluteX | .absoluteY | .indirect => 2

/-- The length of an instruction in bytes: by its mode alone, but for BRK, which is listed as 2 bytes with its padding
byte (30_encoding.md R150). -/
def Instr.length (i : Instr) : Nat :=
  match i with
  | .brk _ => 2
  | i => i.mode.operandBytes + 1

/-- An instruction carries the operand bytes its format has. -/
def Instr.wellFormed (i : Instr) : Bool := i.operands.length + 1 == i.length

/-- The bytes `bs` are as many as instruction `i` has (30_encoding.md R150). -/
def Instr.fits (i : Instr) (bs : List Byte) : Bool := bs.length == i.length

end Sys2Proof
end

