-- ==== Sys2Proof/Decode.lean ====
section
/-! DEFINITION. The decoder and the encoder, both written from the opcode listing of 30_encoding.md R155. -/

namespace Sys2Proof

/-- Row $0x of the opcode map (30_encoding.md R154): the instruction each opcode selects, from the operand
bytes `l` (byte 1) and `h` (byte 2). -/
def opcodeRow0 : List (Byte → Byte → Instr) := [
  fun l _ => .brk l,
  fun l _ => .oraIzx l,
  fun _ _ => .jam02,
  fun l _ => .sloIzx l,
  fun l _ => .nopZp04 l,
  fun l _ => .oraZp l,
  fun l _ => .aslZp l,
  fun l _ => .sloZp l,
  fun _ _ => .php,
  fun l _ => .oraImm l,
  fun _ _ => .aslA,
  fun l _ => .ancImm0B l,
  fun l h => .nopAbs0C (word h l),
  fun l h => .oraAbs (word h l),
  fun l h => .aslAbs (word h l),
  fun l h => .sloAbs (word h l)]

/-- Row $1x of the opcode map (30_encoding.md R154): the instruction each opcode selects, from the operand
bytes `l` (byte 1) and `h` (byte 2). -/
def opcodeRow1 : List (Byte → Byte → Instr) := [
  fun l _ => .bpl l,
  fun l _ => .oraIzy l,
  fun _ _ => .jam12,
  fun l _ => .sloIzy l,
  fun l _ => .nopZpx14 l,
  fun l _ => .oraZpx l,
  fun l _ => .aslZpx l,
  fun l _ => .sloZpx l,
  fun _ _ => .clc,
  fun l h => .oraAby (word h l),
  fun _ _ => .nopImp1A,
  fun l h => .sloAby (word h l),
  fun l h => .nopAbx1C (word h l),
  fun l h => .oraAbx (word h l),
  fun l h => .aslAbx (word h l),
  fun l h => .sloAbx (word h l)]

/-- Row $2x of the opcode map (30_encoding.md R154): the instruction each opcode selects, from the operand
bytes `l` (byte 1) and `h` (byte 2). -/
def opcodeRow2 : List (Byte → Byte → Instr) := [
  fun l h => .jsrAbs (word h l),
  fun l _ => .andIzx l,
  fun _ _ => .jam22,
  fun l _ => .rlaIzx l,
  fun l _ => .bitZp l,
  fun l _ => .andZp l,
  fun l _ => .rolZp l,
  fun l _ => .rlaZp l,
  fun _ _ => .plp,
  fun l _ => .andImm l,
  fun _ _ => .rolA,
  fun l _ => .ancImm2B l,
  fun l h => .bitAbs (word h l),
  fun l h => .andAbs (word h l),
  fun l h => .rolAbs (word h l),
  fun l h => .rlaAbs (word h l)]

/-- Row $3x of the opcode map (30_encoding.md R154): the instruction each opcode selects, from the operand
bytes `l` (byte 1) and `h` (byte 2). -/
def opcodeRow3 : List (Byte → Byte → Instr) := [
  fun l _ => .bmi l,
  fun l _ => .andIzy l,
  fun _ _ => .jam32,
  fun l _ => .rlaIzy l,
  fun l _ => .nopZpx34 l,
  fun l _ => .andZpx l,
  fun l _ => .rolZpx l,
  fun l _ => .rlaZpx l,
  fun _ _ => .sec,
  fun l h => .andAby (word h l),
  fun _ _ => .nopImp3A,
  fun l h => .rlaAby (word h l),
  fun l h => .nopAbx3C (word h l),
  fun l h => .andAbx (word h l),
  fun l h => .rolAbx (word h l),
  fun l h => .rlaAbx (word h l)]

/-- Row $4x of the opcode map (30_encoding.md R154): the instruction each opcode selects, from the operand
bytes `l` (byte 1) and `h` (byte 2). -/
def opcodeRow4 : List (Byte → Byte → Instr) := [
  fun _ _ => .rti,
  fun l _ => .eorIzx l,
  fun _ _ => .jam42,
  fun l _ => .sreIzx l,
  fun l _ => .nopZp44 l,
  fun l _ => .eorZp l,
  fun l _ => .lsrZp l,
  fun l _ => .sreZp l,
  fun _ _ => .pha,
  fun l _ => .eorImm l,
  fun _ _ => .lsrA,
  fun l _ => .alrImm l,
  fun l h => .jmpAbs (word h l),
  fun l h => .eorAbs (word h l),
  fun l h => .lsrAbs (word h l),
  fun l h => .sreAbs (word h l)]

/-- Row $5x of the opcode map (30_encoding.md R154): the instruction each opcode selects, from the operand
bytes `l` (byte 1) and `h` (byte 2). -/
def opcodeRow5 : List (Byte → Byte → Instr) := [
  fun l _ => .bvc l,
  fun l _ => .eorIzy l,
  fun _ _ => .jam52,
  fun l _ => .sreIzy l,
  fun l _ => .nopZpx54 l,
  fun l _ => .eorZpx l,
  fun l _ => .lsrZpx l,
  fun l _ => .sreZpx l,
  fun _ _ => .cli,
  fun l h => .eorAby (word h l),
  fun _ _ => .nopImp5A,
  fun l h => .sreAby (word h l),
  fun l h => .nopAbx5C (word h l),
  fun l h => .eorAbx (word h l),
  fun l h => .lsrAbx (word h l),
  fun l h => .sreAbx (word h l)]

/-- Row $6x of the opcode map (30_encoding.md R154): the instruction each opcode selects, from the operand
bytes `l` (byte 1) and `h` (byte 2). -/
def opcodeRow6 : List (Byte → Byte → Instr) := [
  fun _ _ => .rts,
  fun l _ => .adcIzx l,
  fun _ _ => .jam62,
  fun l _ => .rraIzx l,
  fun l _ => .nopZp64 l,
  fun l _ => .adcZp l,
  fun l _ => .rorZp l,
  fun l _ => .rraZp l,
  fun _ _ => .pla,
  fun l _ => .adcImm l,
  fun _ _ => .rorA,
  fun l _ => .arrImm l,
  fun l h => .jmpInd (word h l),
  fun l h => .adcAbs (word h l),
  fun l h => .rorAbs (word h l),
  fun l h => .rraAbs (word h l)]

/-- Row $7x of the opcode map (30_encoding.md R154): the instruction each opcode selects, from the operand
bytes `l` (byte 1) and `h` (byte 2). -/
def opcodeRow7 : List (Byte → Byte → Instr) := [
  fun l _ => .bvs l,
  fun l _ => .adcIzy l,
  fun _ _ => .jam72,
  fun l _ => .rraIzy l,
  fun l _ => .nopZpx74 l,
  fun l _ => .adcZpx l,
  fun l _ => .rorZpx l,
  fun l _ => .rraZpx l,
  fun _ _ => .sei,
  fun l h => .adcAby (word h l),
  fun _ _ => .nopImp7A,
  fun l h => .rraAby (word h l),
  fun l h => .nopAbx7C (word h l),
  fun l h => .adcAbx (word h l),
  fun l h => .rorAbx (word h l),
  fun l h => .rraAbx (word h l)]

/-- Row $8x of the opcode map (30_encoding.md R154): the instruction each opcode selects, from the operand
bytes `l` (byte 1) and `h` (byte 2). -/
def opcodeRow8 : List (Byte → Byte → Instr) := [
  fun l _ => .nopImm80 l,
  fun l _ => .staIzx l,
  fun l _ => .nopImm82 l,
  fun l _ => .saxIzx l,
  fun l _ => .styZp l,
  fun l _ => .staZp l,
  fun l _ => .stxZp l,
  fun l _ => .saxZp l,
  fun _ _ => .dey,
  fun l _ => .nopImm89 l,
  fun _ _ => .txa,
  fun l _ => .aneImm l,
  fun l h => .styAbs (word h l),
  fun l h => .staAbs (word h l),
  fun l h => .stxAbs (word h l),
  fun l h => .saxAbs (word h l)]

/-- Row $9x of the opcode map (30_encoding.md R154): the instruction each opcode selects, from the operand
bytes `l` (byte 1) and `h` (byte 2). -/
def opcodeRow9 : List (Byte → Byte → Instr) := [
  fun l _ => .bcc l,
  fun l _ => .staIzy l,
  fun _ _ => .jam92,
  fun l _ => .shaIzy l,
  fun l _ => .styZpx l,
  fun l _ => .staZpx l,
  fun l _ => .stxZpy l,
  fun l _ => .saxZpy l,
  fun _ _ => .tya,
  fun l h => .staAby (word h l),
  fun _ _ => .txs,
  fun l h => .tasAby (word h l),
  fun l h => .shyAbx (word h l),
  fun l h => .staAbx (word h l),
  fun l h => .shxAby (word h l),
  fun l h => .shaAby (word h l)]

/-- Row $Ax of the opcode map (30_encoding.md R154): the instruction each opcode selects, from the operand
bytes `l` (byte 1) and `h` (byte 2). -/
def opcodeRowA : List (Byte → Byte → Instr) := [
  fun l _ => .ldyImm l,
  fun l _ => .ldaIzx l,
  fun l _ => .ldxImm l,
  fun l _ => .laxIzx l,
  fun l _ => .ldyZp l,
  fun l _ => .ldaZp l,
  fun l _ => .ldxZp l,
  fun l _ => .laxZp l,
  fun _ _ => .tay,
  fun l _ => .ldaImm l,
  fun _ _ => .tax,
  fun l _ => .lxaImm l,
  fun l h => .ldyAbs (word h l),
  fun l h => .ldaAbs (word h l),
  fun l h => .ldxAbs (word h l),
  fun l h => .laxAbs (word h l)]

/-- Row $Bx of the opcode map (30_encoding.md R154): the instruction each opcode selects, from the operand
bytes `l` (byte 1) and `h` (byte 2). -/
def opcodeRowB : List (Byte → Byte → Instr) := [
  fun l _ => .bcs l,
  fun l _ => .ldaIzy l,
  fun _ _ => .jamB2,
  fun l _ => .laxIzy l,
  fun l _ => .ldyZpx l,
  fun l _ => .ldaZpx l,
  fun l _ => .ldxZpy l,
  fun l _ => .laxZpy l,
  fun _ _ => .clv,
  fun l h => .ldaAby (word h l),
  fun _ _ => .tsx,
  fun l h => .lasAby (word h l),
  fun l h => .ldyAbx (word h l),
  fun l h => .ldaAbx (word h l),
  fun l h => .ldxAby (word h l),
  fun l h => .laxAby (word h l)]

/-- Row $Cx of the opcode map (30_encoding.md R154): the instruction each opcode selects, from the operand
bytes `l` (byte 1) and `h` (byte 2). -/
def opcodeRowC : List (Byte → Byte → Instr) := [
  fun l _ => .cpyImm l,
  fun l _ => .cmpIzx l,
  fun l _ => .nopImmC2 l,
  fun l _ => .dcpIzx l,
  fun l _ => .cpyZp l,
  fun l _ => .cmpZp l,
  fun l _ => .decZp l,
  fun l _ => .dcpZp l,
  fun _ _ => .iny,
  fun l _ => .cmpImm l,
  fun _ _ => .dex,
  fun l _ => .sbxImm l,
  fun l h => .cpyAbs (word h l),
  fun l h => .cmpAbs (word h l),
  fun l h => .decAbs (word h l),
  fun l h => .dcpAbs (word h l)]

/-- Row $Dx of the opcode map (30_encoding.md R154): the instruction each opcode selects, from the operand
bytes `l` (byte 1) and `h` (byte 2). -/
def opcodeRowD : List (Byte → Byte → Instr) := [
  fun l _ => .bne l,
  fun l _ => .cmpIzy l,
  fun _ _ => .jamD2,
  fun l _ => .dcpIzy l,
  fun l _ => .nopZpxD4 l,
  fun l _ => .cmpZpx l,
  fun l _ => .decZpx l,
  fun l _ => .dcpZpx l,
  fun _ _ => .cld,
  fun l h => .cmpAby (word h l),
  fun _ _ => .nopImpDA,
  fun l h => .dcpAby (word h l),
  fun l h => .nopAbxDC (word h l),
  fun l h => .cmpAbx (word h l),
  fun l h => .decAbx (word h l),
  fun l h => .dcpAbx (word h l)]

/-- Row $Ex of the opcode map (30_encoding.md R154): the instruction each opcode selects, from the operand
bytes `l` (byte 1) and `h` (byte 2). -/
def opcodeRowE : List (Byte → Byte → Instr) := [
  fun l _ => .cpxImm l,
  fun l _ => .sbcIzx l,
  fun l _ => .nopImmE2 l,
  fun l _ => .iscIzx l,
  fun l _ => .cpxZp l,
  fun l _ => .sbcZp l,
  fun l _ => .incZp l,
  fun l _ => .iscZp l,
  fun _ _ => .inx,
  fun l _ => .sbcImm l,
  fun _ _ => .nop,
  fun l _ => .sbcImmEB l,
  fun l h => .cpxAbs (word h l),
  fun l h => .sbcAbs (word h l),
  fun l h => .incAbs (word h l),
  fun l h => .iscAbs (word h l)]

/-- Row $Fx of the opcode map (30_encoding.md R154): the instruction each opcode selects, from the operand
bytes `l` (byte 1) and `h` (byte 2). -/
def opcodeRowF : List (Byte → Byte → Instr) := [
  fun l _ => .beq l,
  fun l _ => .sbcIzy l,
  fun _ _ => .jamF2,
  fun l _ => .iscIzy l,
  fun l _ => .nopZpxF4 l,
  fun l _ => .sbcZpx l,
  fun l _ => .incZpx l,
  fun l _ => .iscZpx l,
  fun _ _ => .sed,
  fun l h => .sbcAby (word h l),
  fun _ _ => .nopImpFA,
  fun l h => .iscAby (word h l),
  fun l h => .nopAbxFC (word h l),
  fun l h => .sbcAbx (word h l),
  fun l h => .incAbx (word h l),
  fun l h => .iscAbx (word h l)]

/-- The opcode map: 16 rows of 16 (30_encoding.md R154). -/
def opcodeMap : List (List (Byte → Byte → Instr)) := [
  opcodeRow0, opcodeRow1, opcodeRow2, opcodeRow3, opcodeRow4, opcodeRow5, opcodeRow6, opcodeRow7,
  opcodeRow8, opcodeRow9, opcodeRowA, opcodeRowB, opcodeRowC, opcodeRowD, opcodeRowE, opcodeRowF]

/-- The instruction that opcode `op` selects with operand bytes `l` and `h`; total (30_encoding.md R158). The default of
each lookup is never reached: the map has 16 rows of 16. -/
def decodeOp (op l h : Byte) : Instr :=
  ((opcodeMap.getD (op.toNat / 16) []).getD (op.toNat % 16) (fun _ _ => .nop)) l h

/-- The length that an opcode byte decides (30_encoding.md R150, R157). -/
def opcodeLength (op : Byte) : Nat := (decodeOp op 0 0).length

/-- Why bytes do not decode. No opcode is refused (30_encoding.md R156): bytes fail only by being too few. -/
inductive DecodeError where
  | noBytes
  | truncated (op : Byte) (needed : Nat)
  deriving DecidableEq, Repr

/-- The decoder: the instruction at the head of `bs`, and the bytes after it. Total on any bytes, refusing by name. -/
def decode (bs : List Byte) : Except DecodeError (Instr × List Byte) :=
  match bs with
  | [] => .error .noBytes
  | op :: rest =>
    match opcodeLength op, rest with
    | 1, rest => .ok (decodeOp op 0 0, rest)
    | 2, l :: rest => .ok (decodeOp op l 0, rest)
    | 3, l :: h :: rest => .ok (decodeOp op l h, rest)
    | n, _ => .error (.truncated op n)

/-- The opcode byte of an instruction (30_encoding.md R155). -/
def opcodeOf : Instr → Byte
  | .brk _ => 0x00
  | .oraIzx _ => 0x01
  | .jam02 => 0x02
  | .sloIzx _ => 0x03
  | .nopZp04 _ => 0x04
  | .oraZp _ => 0x05
  | .aslZp _ => 0x06
  | .sloZp _ => 0x07
  | .php => 0x08
  | .oraImm _ => 0x09
  | .aslA => 0x0A
  | .ancImm0B _ => 0x0B
  | .nopAbs0C _ => 0x0C
  | .oraAbs _ => 0x0D
  | .aslAbs _ => 0x0E
  | .sloAbs _ => 0x0F
  | .bpl _ => 0x10
  | .oraIzy _ => 0x11
  | .jam12 => 0x12
  | .sloIzy _ => 0x13
  | .nopZpx14 _ => 0x14
  | .oraZpx _ => 0x15
  | .aslZpx _ => 0x16
  | .sloZpx _ => 0x17
  | .clc => 0x18
  | .oraAby _ => 0x19
  | .nopImp1A => 0x1A
  | .sloAby _ => 0x1B
  | .nopAbx1C _ => 0x1C
  | .oraAbx _ => 0x1D
  | .aslAbx _ => 0x1E
  | .sloAbx _ => 0x1F
  | .jsrAbs _ => 0x20
  | .andIzx _ => 0x21
  | .jam22 => 0x22
  | .rlaIzx _ => 0x23
  | .bitZp _ => 0x24
  | .andZp _ => 0x25
  | .rolZp _ => 0x26
  | .rlaZp _ => 0x27
  | .plp => 0x28
  | .andImm _ => 0x29
  | .rolA => 0x2A
  | .ancImm2B _ => 0x2B
  | .bitAbs _ => 0x2C
  | .andAbs _ => 0x2D
  | .rolAbs _ => 0x2E
  | .rlaAbs _ => 0x2F
  | .bmi _ => 0x30
  | .andIzy _ => 0x31
  | .jam32 => 0x32
  | .rlaIzy _ => 0x33
  | .nopZpx34 _ => 0x34
  | .andZpx _ => 0x35
  | .rolZpx _ => 0x36
  | .rlaZpx _ => 0x37
  | .sec => 0x38
  | .andAby _ => 0x39
  | .nopImp3A => 0x3A
  | .rlaAby _ => 0x3B
  | .nopAbx3C _ => 0x3C
  | .andAbx _ => 0x3D
  | .rolAbx _ => 0x3E
  | .rlaAbx _ => 0x3F
  | .rti => 0x40
  | .eorIzx _ => 0x41
  | .jam42 => 0x42
  | .sreIzx _ => 0x43
  | .nopZp44 _ => 0x44
  | .eorZp _ => 0x45
  | .lsrZp _ => 0x46
  | .sreZp _ => 0x47
  | .pha => 0x48
  | .eorImm _ => 0x49
  | .lsrA => 0x4A
  | .alrImm _ => 0x4B
  | .jmpAbs _ => 0x4C
  | .eorAbs _ => 0x4D
  | .lsrAbs _ => 0x4E
  | .sreAbs _ => 0x4F
  | .bvc _ => 0x50
  | .eorIzy _ => 0x51
  | .jam52 => 0x52
  | .sreIzy _ => 0x53
  | .nopZpx54 _ => 0x54
  | .eorZpx _ => 0x55
  | .lsrZpx _ => 0x56
  | .sreZpx _ => 0x57
  | .cli => 0x58
  | .eorAby _ => 0x59
  | .nopImp5A => 0x5A
  | .sreAby _ => 0x5B
  | .nopAbx5C _ => 0x5C
  | .eorAbx _ => 0x5D
  | .lsrAbx _ => 0x5E
  | .sreAbx _ => 0x5F
  | .rts => 0x60
  | .adcIzx _ => 0x61
  | .jam62 => 0x62
  | .rraIzx _ => 0x63
  | .nopZp64 _ => 0x64
  | .adcZp _ => 0x65
  | .rorZp _ => 0x66
  | .rraZp _ => 0x67
  | .pla => 0x68
  | .adcImm _ => 0x69
  | .rorA => 0x6A
  | .arrImm _ => 0x6B
  | .jmpInd _ => 0x6C
  | .adcAbs _ => 0x6D
  | .rorAbs _ => 0x6E
  | .rraAbs _ => 0x6F
  | .bvs _ => 0x70
  | .adcIzy _ => 0x71
  | .jam72 => 0x72
  | .rraIzy _ => 0x73
  | .nopZpx74 _ => 0x74
  | .adcZpx _ => 0x75
  | .rorZpx _ => 0x76
  | .rraZpx _ => 0x77
  | .sei => 0x78
  | .adcAby _ => 0x79
  | .nopImp7A => 0x7A
  | .rraAby _ => 0x7B
  | .nopAbx7C _ => 0x7C
  | .adcAbx _ => 0x7D
  | .rorAbx _ => 0x7E
  | .rraAbx _ => 0x7F
  | .nopImm80 _ => 0x80
  | .staIzx _ => 0x81
  | .nopImm82 _ => 0x82
  | .saxIzx _ => 0x83
  | .styZp _ => 0x84
  | .staZp _ => 0x85
  | .stxZp _ => 0x86
  | .saxZp _ => 0x87
  | .dey => 0x88
  | .nopImm89 _ => 0x89
  | .txa => 0x8A
  | .aneImm _ => 0x8B
  | .styAbs _ => 0x8C
  | .staAbs _ => 0x8D
  | .stxAbs _ => 0x8E
  | .saxAbs _ => 0x8F
  | .bcc _ => 0x90
  | .staIzy _ => 0x91
  | .jam92 => 0x92
  | .shaIzy _ => 0x93
  | .styZpx _ => 0x94
  | .staZpx _ => 0x95
  | .stxZpy _ => 0x96
  | .saxZpy _ => 0x97
  | .tya => 0x98
  | .staAby _ => 0x99
  | .txs => 0x9A
  | .tasAby _ => 0x9B
  | .shyAbx _ => 0x9C
  | .staAbx _ => 0x9D
  | .shxAby _ => 0x9E
  | .shaAby _ => 0x9F
  | .ldyImm _ => 0xA0
  | .ldaIzx _ => 0xA1
  | .ldxImm _ => 0xA2
  | .laxIzx _ => 0xA3
  | .ldyZp _ => 0xA4
  | .ldaZp _ => 0xA5
  | .ldxZp _ => 0xA6
  | .laxZp _ => 0xA7
  | .tay => 0xA8
  | .ldaImm _ => 0xA9
  | .tax => 0xAA
  | .lxaImm _ => 0xAB
  | .ldyAbs _ => 0xAC
  | .ldaAbs _ => 0xAD
  | .ldxAbs _ => 0xAE
  | .laxAbs _ => 0xAF
  | .bcs _ => 0xB0
  | .ldaIzy _ => 0xB1
  | .jamB2 => 0xB2
  | .laxIzy _ => 0xB3
  | .ldyZpx _ => 0xB4
  | .ldaZpx _ => 0xB5
  | .ldxZpy _ => 0xB6
  | .laxZpy _ => 0xB7
  | .clv => 0xB8
  | .ldaAby _ => 0xB9
  | .tsx => 0xBA
  | .lasAby _ => 0xBB
  | .ldyAbx _ => 0xBC
  | .ldaAbx _ => 0xBD
  | .ldxAby _ => 0xBE
  | .laxAby _ => 0xBF
  | .cpyImm _ => 0xC0
  | .cmpIzx _ => 0xC1
  | .nopImmC2 _ => 0xC2
  | .dcpIzx _ => 0xC3
  | .cpyZp _ => 0xC4
  | .cmpZp _ => 0xC5
  | .decZp _ => 0xC6
  | .dcpZp _ => 0xC7
  | .iny => 0xC8
  | .cmpImm _ => 0xC9
  | .dex => 0xCA
  | .sbxImm _ => 0xCB
  | .cpyAbs _ => 0xCC
  | .cmpAbs _ => 0xCD
  | .decAbs _ => 0xCE
  | .dcpAbs _ => 0xCF
  | .bne _ => 0xD0
  | .cmpIzy _ => 0xD1
  | .jamD2 => 0xD2
  | .dcpIzy _ => 0xD3
  | .nopZpxD4 _ => 0xD4
  | .cmpZpx _ => 0xD5
  | .decZpx _ => 0xD6
  | .dcpZpx _ => 0xD7
  | .cld => 0xD8
  | .cmpAby _ => 0xD9
  | .nopImpDA => 0xDA
  | .dcpAby _ => 0xDB
  | .nopAbxDC _ => 0xDC
  | .cmpAbx _ => 0xDD
  | .decAbx _ => 0xDE
  | .dcpAbx _ => 0xDF
  | .cpxImm _ => 0xE0
  | .sbcIzx _ => 0xE1
  | .nopImmE2 _ => 0xE2
  | .iscIzx _ => 0xE3
  | .cpxZp _ => 0xE4
  | .sbcZp _ => 0xE5
  | .incZp _ => 0xE6
  | .iscZp _ => 0xE7
  | .inx => 0xE8
  | .sbcImm _ => 0xE9
  | .nop => 0xEA
  | .sbcImmEB _ => 0xEB
  | .cpxAbs _ => 0xEC
  | .sbcAbs _ => 0xED
  | .incAbs _ => 0xEE
  | .iscAbs _ => 0xEF
  | .beq _ => 0xF0
  | .sbcIzy _ => 0xF1
  | .jamF2 => 0xF2
  | .iscIzy _ => 0xF3
  | .nopZpxF4 _ => 0xF4
  | .sbcZpx _ => 0xF5
  | .incZpx _ => 0xF6
  | .iscZpx _ => 0xF7
  | .sed => 0xF8
  | .sbcAby _ => 0xF9
  | .nopImpFA => 0xFA
  | .iscAby _ => 0xFB
  | .nopAbxFC _ => 0xFC
  | .sbcAbx _ => 0xFD
  | .incAbx _ => 0xFE
  | .iscAbx _ => 0xFF

/-- The encoder: the opcode and then the operand bytes (30_encoding.md R151). -/
def encode (i : Instr) : List Byte := opcodeOf i :: i.operands

/-- The three bytes of an instruction whose bits are `w`, bit 0 the least significant bit of the first byte; every bit
from `nbits` up is 0. -/
def tableBytes (nbits w : Nat) : List Byte :=
  let w := w % 2 ^ nbits
  [BitVec.ofNat 8 w, BitVec.ofNat 8 (w / 256), BitVec.ofNat 8 (w / 65536)]

/-- The instruction the decoder reads from an instruction word of spec/opcode_table.json (numbered as that table numbers
bits: a later byte's bits count on from the first byte's). -/
def decodeTableWord (nbits w : Nat) : Option Instr :=
  match decode (tableBytes nbits w) with
  | .ok (i, _) => some i
  | .error _ => none

end Sys2Proof
end

