-- ==== Sys2Proof/Machine/Fetch.lean ====
section
/-! DEFINITION. Fetching an instruction, with the bus cycles and the polls that fall among its bytes (40_addressing.md R201
to R213), and the choice of the next step (60_exceptions.md R609). -/

namespace Sys2Proof.Machine

/-- The bytes of an instruction and the state after the cycles that fetched them. -/
structure Fetched where
  bytes : List Byte
  state : State

/-- Do the instruction's cycles poll at the end of c1, before its operand byte is fetched: immediate and relative modes
(40_addressing.md R203, 44_control_flow.md R400)? -/
def pollsAtC1 (op : Byte) : Bool :=
  (decodeOp op 0 0).mode == .immediate || (decodeOp op 0 0).mode == .relative

/-- c1: the opcode fetch (40_addressing.md R201). -/
def fetchOpcode (s : State) : Byte × State :=
  ((fetchByte s).1, if pollsAtC1 (fetchByte s).1 then poll (fetchByte s).2 else (fetchByte s).2)

/-- The third byte of an instruction, from the state after c2. JMP abs polls before it (44_control_flow.md R409). JSR reads
it only in its c6, after its pushes (R411): here it is looked at with no cycle (log entry 11). -/
def fetchThird (op : Byte) (s : State) : Byte × State :=
  if op = 0x20 then (peek s.mach.regs.pc s, s)
  else fetchByte (if op = 0x4C then poll s else s)

/-- The fetch cycles of an instruction: c1, and one for each operand byte (40_addressing.md R201 to R212). -/
def fetchInstr (s : State) : Fetched :=
  let c1 := fetchOpcode s
  match opcodeLength c1.1 with
  | 1 => { bytes := [c1.1], state := c1.2 }
  | 2 => { bytes := [c1.1, (fetchByte c1.2).1], state := (fetchByte c1.2).2 }
  | _ =>
    { bytes := [c1.1, (fetchByte c1.2).1, (fetchThird c1.1 (fetchByte c1.2).2).1]
      state := (fetchThird c1.1 (fetchByte c1.2).2).2 }

/-- What the next step is (64_frame_driver_io.md R907). -/
inductive StepKind where
  | reset | dmcStall | jammed | interrupt | instruction
  deriving DecidableEq, Repr

/-- The scheduler's choice at a step boundary: the first condition that holds (60_exceptions.md R609). -/
def stepKind (s : State) : StepKind :=
  if s.mach.hidden.rstPending then .reset
  else if s.mach.apu.dmc.request then .dmcStall
  else if s.mach.hidden.jammed then .jammed
  else if s.mach.hidden.intDue then .interrupt
  else .instruction

/-- Puts the three bytes `bs` in work RAM from index `i` up, wrapping as its mirrors do. -/
def placeBytes (i : Nat) (bs : List Byte) (ram : Memory) : Memory :=
  match bs with
  | [] => ram
  | b :: rest => placeBytes (i + 1) rest (Cells.write ram (i % 2048) b)

/-- The state whose next step fetches and runs the instruction with bytes `bs`: no reset, interrupt, jam or DMC request
stands before it, and the bytes are in work RAM at PC, which moves to $0200 where the three bytes at PC are not all work
RAM. -/
def readyToRun (s : State) (bs : List Byte) : State :=
  let pc := s.mach.regs.pc
  let pc := if pc.toNat + 2 < 0x2000 then pc else 0x0200
  let dmc := s.mach.apu.dmc
  { s with mach := { s.mach with
      regs := { s.mach.regs with pc := pc }
      hidden := { s.mach.hidden with rstPending := false, jammed := false, intDue := false }
      ram := placeBytes pc.toNat bs s.mach.ram
      apu := { s.mach.apu with dmc := { dmc with remain := if dmc.request then 0 else dmc.remain } } } }

end Sys2Proof.Machine
end

