-- ==== Sys2Proof/Machine/Step.lean ====
section
/-! DEFINITION. One step of the machine: a run of whole cycles (64_frame_driver_io.md R907). -/

namespace Sys2Proof.Machine

/-- Completes an instruction's outcome with the OAM DMA it asked for (20_memory.md R115). -/
def finish : Outcome → Outcome
  | .next s => .next (runDma s)
  | .fault r => .fault r
  | .refused r => .refused r

/-- The instruction step: fetch, decode, run (64_frame_driver_io.md R907). -/
def instructionStep (s : State) : Outcome :=
  match decode (fetchInstr s).bytes with
  | .ok (i, _) => finish (exec i (fetchInstr s).state)
  | .error _ => .fault .internalConsistency

/-- `Step()`: one step, of the kind the scheduler chooses (60_exceptions.md R609, 64_frame_driver_io.md R907). -/
def step (s : State) : Host.Outcome State Fault Refusal :=
  match stepKind s with
  | .reset => .next (resetSequence s)
  | .dmcStall => .next (dmcStall s)
  | .jammed => .next (idle s)
  | .interrupt => .next (interruptSequence s)
  | .instruction => instructionStep s

/-- `s` with an instruction whose bits are `w` placed where `step` fetches its next instruction. -/
def State.withFetchWord (s : State) (nbits w : Nat) : State := readyToRun s (tableBytes nbits w)

end Sys2Proof.Machine
end

