-- ==== Sys2Proof/Machine/Cartridge.lean ====
section
/-! DEFINITION. The cartridge image file: the iNES header and the validation of `loadROM` (63_cartridge_mappers.md R852 to
R854). -/

namespace Sys2Proof.Machine

/-- The result codes of `loadROM` (64_frame_driver_io.md R925). -/
inductive RomResult where
  | success | fileNotFound | invalidRom | unsupportedMapper | error
  deriving DecidableEq, Repr

/-- Byte `i` of the file. -/
def fileByte (data : List Byte) (i : Nat) : Byte := data.getD i 0

/-- The 512-byte trainer is present: header byte 6 bit 2 (63_cartridge_mappers.md R852). -/
def trainerSize (data : List Byte) : Nat := if (fileByte data 6).getLsbD 2 then 512 else 0

/-- The sizes of PRG ROM and CHR ROM that the header gives (63_cartridge_mappers.md R852). -/
def prgBytes (data : List Byte) : Nat := 16384 * (fileByte data 4).toNat
def chrBytes (data : List Byte) : Nat := 8192 * (fileByte data 5).toNat

/-- `mapper_id` (63_cartridge_mappers.md R852). -/
def headerMapper (data : List Byte) : Byte := (fileByte data 7 &&& 0xF0) ||| (fileByte data 6 >>> 4)

/-- Check 2 of 63_cartridge_mappers.md R853: the header and the length. -/
def headerValid (data : List Byte) : Bool :=
  data.length ≥ 16 && data.take 4 == [0x4E, 0x45, 0x53, 0x1A] && fileByte data 4 != 0 &&
    data.length ≥ 16 + trainerSize data + prgBytes data + chrBytes data

/-- The image that a valid file holds: after the header the trainer, PRG ROM and CHR ROM (63_cartridge_mappers.md R852,
R854). -/
def imageOf (name data : List Byte) : Image :=
  let trainer := data.drop 16
  let prg := trainer.drop (trainerSize data)
  let chr := prg.drop (prgBytes data)
  { mapperId := headerMapper data
    prgCount := fileByte data 4
    chrCount := fileByte data 5
    prgRom := Cells.ofList (prg.take (prgBytes data))
    chrRom := Cells.ofList (chr.take (chrBytes data))
    trainer := if (fileByte data 6).getLsbD 2 then some (Cells.ofList (trainer.take 512)) else none
    vertical := (fileByte data 6).getLsbD 0
    fourScreen := (fileByte data 6).getLsbD 3
    battery := (fileByte data 6).getLsbD 1
    name := name }

/-- Is the mapper id in SUPPORTED_MAPPERS (00_scope.md R9, 63_cartridge_mappers.md R885)? -/
def supports (set : Config.MapperSet) (id : Byte) : Bool :=
  match id.toNat with
  | 0 => true
  | 1 => set.m1
  | 2 => set.m2
  | 3 => set.m3
  | 4 => set.m4
  | 7 => set.m7
  | _ => false

/-- The validation of `loadROM`, first failure first (63_cartridge_mappers.md R853). `data` is `none` where the path cannot
be read; `hostOk` is false where the host fails otherwise, for instance in allocation (log entry 15). -/
def parseRom (set : Config.MapperSet) (name : List Byte) (data : Option (List Byte)) (hostOk : Bool) :
    Except RomResult Image :=
  match data with
  | none => .error .fileNotFound
  | some d =>
    if !headerValid d then .error .invalidRom
    else if !supports set (headerMapper d) then .error .unsupportedMapper
    else if !hostOk then .error .error
    else .ok (imageOf name d)

/-- The part of a path after its last '/' (log entry 15). -/
def fileName (path : List Byte) : List Byte := (path.reverse.takeWhile (· != 0x2F)).reverse

/-- A file name without its extension, the last '.' and what follows it. -/
def stripExtension (name : List Byte) : List Byte :=
  if name.contains 0x2E then ((name.reverse.dropWhile (· != 0x2E)).drop 1).reverse else name

/-- The ROM name of a path: the file name without directory and extension (64_frame_driver_io.md R925). -/
def romName (path : List Byte) : List Byte := stripExtension (fileName path)

end Sys2Proof.Machine
end

