-- ==== Sys2Proof/Machine/Double.lean ====
section
/-! DEFINITION. The doubles of the control surface (64_frame_driver_io.md R916: `getFPS()` returns a double), as the 64 bits of
the binary64 format: the double nearest to a number, and the number a double stands for. Only numbers from 0 up occur. Log
entry 12. -/

namespace Sys2Proof.Machine

/-- Positive infinity. -/
def doubleInf : BitVec 64 := 0x7FF0000000000000

/-- `n / d` rounded to the nearest natural number, a tie to the even one. -/
def roundHalfEven (n d : Nat) : Nat :=
  let q := n / d
  let r := n % d
  if 2 * r > d || (2 * r == d && q % 2 == 1) then q + 1 else q

/-- The exponent of the leading bit of `n / d`, both positive. -/
def leadingBit (n d : Nat) : Int :=
  let a := n.log2
  let b := d.log2
  if d * 2 ^ a ≤ n * 2 ^ b then (a : Int) - b else (a : Int) - b - 1

/-- The double nearest to `x`, for `x` from 0 up: the significand has 53 bits, fewer below 2^-1022; a number past the largest
double gives infinity. -/
def doubleOf (x : Rat) : BitVec 64 :=
  let n := x.num.toNat
  if n = 0 then 0
  else
    let e := max (leadingBit n x.den) (-1022)
    let m := roundHalfEven (n * 2 ^ (52 - e).toNat) (x.den * 2 ^ (e - 52).toNat)
    BitVec.ofNat 64 (min ((e + 1022).toNat * 2 ^ 52 + m) doubleInf.toNat)

/-- The number that a finite double from 0 up stands for. -/
def doubleValue (b : BitVec 64) : Rat :=
  let e : Nat := b.toNat / 2 ^ 52 % 2048
  let m : Nat := b.toNat % 2 ^ 52
  if e = 0 then mkRat (m : Int) (2 ^ 1074)
  else mkRat (((2 ^ 52 + m) * 2 ^ (e - 1075) : Nat) : Int) (2 ^ (1075 - e))

end Sys2Proof.Machine
end

