-- ==== Sys2Proof/Machine/PowerOn.lean ====
section
/-! DEFINITION. Power-on and soft reset of MachineState (70_reset_and_hazards.md R1000 to R1003). -/

namespace Sys2Proof.Machine

/-- Copies the first `n` bytes of the trainer `t` to `prg_ram[$1000..]`, in order (63_cartridge_mappers.md R854). -/
def copyTrainer (t : Memory) : Nat → Memory → Memory
  | 0, m => m
  | n + 1, m => Cells.write (copyTrainer t n m) (0x1000 + n) (Cells.read t n)

/-- PRG RAM with the trainer of the image, if it has one, copied to `prg_ram[$1000..$11FF]`. -/
def withTrainer (img : Image) (m : Memory) : Memory :=
  match img.trainer with
  | none => m
  | some t => copyTrainer t 512 m

/-- Power-on of a loaded image over PRG RAM contents `prg` (70_reset_and_hazards.md R1000). -/
def powerOnMachine (img : Image) (prg : Memory) : MachineState :=
  { MachineState.powerOn with
    cart := { prgRam := withTrainer img prg, chrRam := [], cartVram := [] }
    mapper := mapperPowerOn img }

/-- MachineState after a successful `loadROM`: PRG RAM is all $00 but for the trainer (70_reset_and_hazards.md R1000). -/
def loadedMachine (img : Image) : MachineState := powerOnMachine img []

/-- MachineState after `powerCycle`: battery-backed PRG RAM keeps its contents (70_reset_and_hazards.md R1000). -/
def powerCycled (img : Image) (m : MachineState) : MachineState :=
  powerOnMachine img (if img.battery then m.cart.prgRam else [])

/-- The PPU after a soft reset: the "reset" column of 61_ppu.md R651; no sprite fetch is under way at dot 0. -/
def Ppu.softReset (p : Ppu) : Ppu :=
  { p with ctrl := 0, mask := 0, t := 0, fineX := 0, w := false, readBuffer := 0, scanline := 0, dot := 0,
           frameOdd := false, warmup := true, suppressVbl := false, sprLatch := none }

/-- The APU after a soft reset: the "reset" column of 62_apu.md R751. -/
def Apu.softReset (a : Apu) : Apu :=
  { a with p1 := { a.p1 with len := 0 }, p2 := { a.p2 with len := 0 }, tri := { a.tri with len := 0 }
           noi := { a.noi with len := 0 }, enP1 := false, enP2 := false, enTri := false, enNoi := false
           dmc := { a.dmc with remain := 0, irq := false }
           fc := { a.fc with cycle := 0, resetDelay := 0, irq := false } }

/-- MachineState after a soft reset (70_reset_and_hazards.md R1001). -/
def MachineState.softReset (m : MachineState) : MachineState :=
  { m with hidden := { m.hidden with nmiPrev := false, nmiPending := false, intDue := false, rstPending := true }
           ppu := m.ppu.softReset
           apu := m.apu.softReset }

end Sys2Proof.Machine
end

