-- ==== Sys2Proof/Machine/Snapshot.lean ====
section
/-! DEFINITION. The snapshot format: CRC-32, the payload fields in order, saving, and loading with its two stages of checks
(65_snapshot.md R950 to R974). -/

namespace Sys2Proof.Machine

/-! ## CRC-32 (65_snapshot.md R956) -/

/-- `n` shift steps of the CRC register. -/
def crcSteps : Nat → BitVec 32 → BitVec 32
  | 0, crc => crc
  | n + 1, crc => crcSteps n ((crc >>> 1) ^^^ (if crc.getLsbD 0 then 0xEDB88320 else 0))

/-- The CRC register after the bytes `bs`. -/
def crcBytes : BitVec 32 → List Byte → BitVec 32
  | crc, [] => crc
  | crc, b :: bs => crcBytes (crcSteps 8 (crc ^^^ b.setWidth 32)) bs

/-- CRC-32 (65_snapshot.md R956). -/
def crc32 (bs : List Byte) : BitVec 32 := crcBytes 0xFFFFFFFF bs ^^^ 0xFFFFFFFF

/-- The compatibility tag of an image (65_snapshot.md R955). -/
def compatTag (img : Image) : BitVec 32 :=
  let flags : Byte := (if img.vertical then 1 else 0) ||| (if img.fourScreen then 8 else 0)
  crc32 ([img.mapperId, img.prgCount, img.chrCount, flags] ++ Cells.toList img.prgRom (16384 * img.prgCount.toNat) ++
    Cells.toList img.chrRom (8192 * img.chrCount.toNat))

/-! ## Writing fields (65_snapshot.md R951) -/

/-- The `k` bytes of `n`, little-endian; what does not fit is dropped. -/
def le : Nat → Nat → List Byte
  | 0, _ => []
  | k + 1, n => BitVec.ofNat 8 n :: le k (n / 256)

/-- A field of `w` bits stored in `k` bytes, zero-extended. -/
def putVec {w : Nat} (k : Nat) (v : BitVec w) : List Byte := le k v.toNat

/-- A bit field: a byte 0 or 1. -/
def putBool (b : Bool) : List Byte := [if b then 1 else 0]

/-- An array field: `n` cells of `k` bytes each, in index order. -/
def putCells {w : Nat} (k n : Nat) (m : Cells w) : List Byte := (Cells.toList m n).flatMap (putVec k)

/-- A list of fields of one storage size. -/
def putVecs {w : Nat} (k : Nat) (vs : List (BitVec w)) : List Byte := vs.flatMap (putVec k)

/-- Group 1: CPU. -/
def putCpu (r : Regs) (h : Hidden) : List Byte :=
  putVec 1 r.a ++ putVec 1 r.x ++ putVec 1 r.y ++ putVec 1 r.s ++ putVec 2 r.pc ++ putVec 1 (packP false r.p) ++
    le 8 h.cycles ++ putBool h.nmiPrev ++ putBool h.nmiPending ++ putBool h.irqLevel ++ putBool h.intDue ++
    putBool h.jammed ++ putBool h.rstPending

/-- Group 2: bus. -/
def putBus (openBus : Byte) (ram : Memory) : List Byte := putVec 1 openBus ++ putCells 1 2048 ram

/-- Group 3: PPU registers. -/
def putPpuRegs (p : Ppu) : List Byte :=
  putVec 1 p.ctrl ++ putVec 1 p.mask ++ putBool p.vblankFlag ++ putBool p.spr0Hit ++ putBool p.sprOverflow ++
    putVec 1 p.oamaddr ++ putVec 2 p.v ++ putVec 2 p.t ++ putVec 1 p.fineX ++ putBool p.w ++ putVec 1 p.readBuffer ++
    putVec 1 p.ioLatch

/-- The palette: 32 entries, those of $10, $14, $18 and $1C being the cells of $00, $04, $08 and $0C (61_ppu.md R653). -/
def putPalette (m : Cells 6) : List Byte := (List.range 32).flatMap fun i => putVec 1 (Cells.read m (palIndex i))

/-- Group 4: PPU memories. -/
def putPpuMems (p : Ppu) (v : VideoMem) : List Byte :=
  putCells 1 256 v.oam ++ putVecs 1 p.secOam.toList ++ putPalette v.palette ++ putCells 1 2048 v.ciram

/-- Group 5: PPU timing. -/
def putPpuTiming (p : Ppu) : List Byte :=
  le 2 p.scanline ++ le 2 p.dot ++ putBool p.frameOdd ++ putBool p.warmup ++ putBool p.suppressVbl

/-- A sprite output unit. -/
def putSlot (s : SpriteSlot) : List Byte := putVec 1 s.patLo ++ putVec 1 s.patHi ++ putVec 1 s.attr ++ putVec 1 s.x

/-- Group 6: PPU pipeline. -/
def putPpuPipe (p : Ppu) : List Byte :=
  putVec 1 p.ntLatch ++ putVec 1 p.atLatch ++ putVec 1 p.patLoLatch ++ putVec 1 p.patHiLatch ++ putVec 2 p.bgPatLo ++
    putVec 2 p.bgPatHi ++ putVec 2 p.bgAtLo ++ putVec 2 p.bgAtHi ++ le 1 p.sprCountNext ++ putBool p.spr0Next ++
    p.slots.toList.flatMap putSlot ++ putBool p.slot0IsSpr0

/-- An envelope. -/
def putEnvelope (e : Envelope) : List Byte := putBool e.start ++ putVec 1 e.div ++ putVec 1 e.decay

/-- Groups 8 and 9: a pulse channel. -/
def putPulse (p : Pulse) : List Byte :=
  putVec 1 p.duty ++ putBool p.halt ++ putBool p.constVol ++ putVec 1 p.vol ++ putBool p.swEn ++ putVec 1 p.swPer ++
    putBool p.swNeg ++ putVec 1 p.swShift ++ putVec 1 p.swDiv ++ putBool p.swReload ++ putVec 2 p.period ++
    putVec 2 p.timer ++ putVec 1 p.seq ++ putVec 1 p.len ++ putEnvelope p.env

/-- Group 10: triangle. -/
def putTriangle (t : Triangle) : List Byte :=
  putBool t.ctrl ++ putVec 1 t.linLoad ++ putVec 1 t.lin ++ putBool t.linReload ++ putVec 2 t.period ++
    putVec 2 t.timer ++ putVec 1 t.seq ++ putVec 1 t.len

/-- Group 11: noise. -/
def putNoise (n : Noise) : List Byte :=
  putBool n.halt ++ putBool n.constVol ++ putVec 1 n.vol ++ putBool n.mode ++ putVec 1 n.perIdx ++ putVec 2 n.timer ++
    putVec 2 n.lfsr ++ putVec 1 n.len ++ putEnvelope n.env

/-- The four enable bits, `en[0]` lowest. -/
def enableBits (a : Apu) : BitVec 4 := bitOf a.enNoi ++ bitOf a.enTri ++ bitOf a.enP2 ++ bitOf a.enP1

/-- Group 12: DMC, status and frame counter. -/
def putDmc (a : Apu) : List Byte :=
  putVec 1 (enableBits a) ++ putBool a.dmc.irqEn ++ putBool a.dmc.loop ++ putVec 1 a.dmc.rateIdx ++
    putVec 1 a.dmc.level ++ putVec 2 a.dmc.startAddr ++ putVec 2 a.dmc.length ++ putVec 2 a.dmc.addr ++
    putVec 2 a.dmc.remain ++ putVec 1 a.dmc.buffer ++ putBool a.dmc.bufEmpty ++ putVec 1 a.dmc.shift ++
    le 1 a.dmc.bits ++ putBool a.dmc.silence ++ putVec 2 a.dmc.timer ++ putBool a.dmc.irq ++ putBool a.fc.mode ++
    putBool a.fc.inhibit ++ le 2 a.fc.cycle ++ le 1 a.fc.resetDelay ++ putBool a.fc.irq ++ le 4 a.rsAcc

/-- Groups 13 and 14: cartridge, with the conditional RAMs. -/
def putCart (img : Image) (c : Cart) : List Byte :=
  putVec 1 img.mapperId ++ putCells 1 8192 c.prgRam ++ (if img.chrCount = 0 then putCells 1 8192 c.chrRam else []) ++
    (if img.fourScreen then putCells 1 2048 c.cartVram else [])

/-- Group 15: mapper registers. -/
def putMapper : Mapper → List Byte
  | .nrom => []
  | .mmc1 r =>
    putVec 1 r.shift ++ le 1 r.count ++ putVec 1 r.ctrl ++ putVec 1 r.chr0 ++ putVec 1 r.chr1 ++ putVec 1 r.prg ++
      putVec 8 r.lastWrite
  | .uxrom bank => putVec 1 bank
  | .cnrom chr => putVec 1 chr
  | .mmc3 r =>
    putVec 1 r.sel ++ putBool r.prgMode ++ putBool r.chrInv ++ putVecs 1 r.r.toList ++ putBool r.mirror ++
      putBool r.ramEn ++ putBool r.ramWp ++ putVec 1 r.latch ++ putVec 1 r.counter ++ putBool r.reload ++
      putBool r.irqEn ++ putBool r.irq ++ putVec 8 r.a12LastHigh
  | .axrom reg => putVec 1 reg

/-- Group 16: controllers and scheduler. -/
def putPorts (p : Ports) (frameCount : BitVec 32) (frameDone : Bool) : List Byte :=
  putVec 1 p.latched0 ++ putVec 1 p.latched1 ++ putBool p.strobe ++ putVec 1 p.shreg0 ++ putVec 1 p.shreg1 ++
    putVec 4 frameCount ++ putBool frameDone

/-- The payload (65_snapshot.md R953). -/
def payload (img : Image) (m : MachineState) : List Byte :=
  putCpu m.regs m.hidden ++ putBus m.openBus m.ram ++ putPpuRegs m.ppu ++ putPpuMems m.ppu m.vmem ++
    putPpuTiming m.ppu ++ putPpuPipe m.ppu ++ putCells 2 61440 m.ppu.fbWork ++ putPulse m.apu.p1 ++
    putPulse m.apu.p2 ++ putTriangle m.apu.tri ++ putNoise m.apu.noi ++ putDmc m.apu ++ putCart img m.cart ++
    putMapper m.mapper ++ putPorts m.ports m.frameCount m.frameDone

/-- The header over a payload (65_snapshot.md R952). -/
def blobHeader (img : Image) (body : List Byte) : List Byte :=
  [0x4E, 0x43, 0x53, 0x53] ++ le 2 1 ++ le 2 0 ++ putVec 4 (compatTag img) ++ le 4 body.length ++ putVec 4 (crc32 body)

/-- `Serialize()` (65_snapshot.md R960). -/
def serialize (img : Image) (m : MachineState) : List Byte :=
  blobHeader img (payload img m) ++ payload img m

/-! ## Reading fields, each with its range check (65_snapshot.md R972) -/

/-- A reader of bytes: what it reads and the bytes left, or nothing where a check fails. -/
abbrev Reader (α : Type) := StateT (List Byte) Option α

/-- The value of bytes, little-endian. -/
def leValue : List Byte → Nat
  | [] => 0
  | b :: bs => b.toNat + 256 * leValue bs

/-- A field of `k` bytes with a check on its value. -/
def getNat (k : Nat) (ok : Nat → Bool) : Reader Nat := fun bs =>
  if k ≤ bs.length && ok (leValue (bs.take k)) then some (leValue (bs.take k), bs.drop k) else none

/-- A field of `w` bits in `k` bytes. -/
def getVec (w k : Nat) : Reader (BitVec w) := do
  let n ← getNat k (fun n => n < 2 ^ w)
  pure (BitVec.ofNat w n)

/-- A field of `w` bits in `k` bytes with a further check. -/
def getVecIf (w k : Nat) (ok : BitVec w → Bool) : Reader (BitVec w) := do
  let n ← getNat k (fun n => n < 2 ^ w && ok (BitVec.ofNat w n))
  pure (BitVec.ofNat w n)

/-- A bit field. -/
def getBool : Reader Bool := do
  let n ← getNat 1 (fun n => n ≤ 1)
  pure (n == 1)

/-- `n` fields of `w` bits in `k` bytes each. -/
def getVecs (w k : Nat) : Nat → Reader (List (BitVec w))
  | 0 => pure []
  | n + 1 => do
    let v ← getVec w k
    let vs ← getVecs w k n
    pure (v :: vs)

/-- An array of `n` cells. -/
def getCells (w k n : Nat) : Reader (Cells w) := do
  let vs ← getVecs w k n
  pure (Cells.ofList vs)

/-- A vector of `n` fields of `w` bits, a byte each. -/
def getVector (w n : Nat) : Reader (Vector (BitVec w) n) := do
  let vs ← getVecs w 1 n
  pure (Vector.ofFn fun i => vs.getD i.val 0)

/-- Group 1: CPU. Bits 5 and 4 of the P image are not checked (log entry 24). -/
def getCpu : Reader (Regs × Hidden) := do
  let a ← getVec 8 1
  let x ← getVec 8 1
  let y ← getVec 8 1
  let s ← getVec 8 1
  let pc ← getVec 16 2
  let p ← getVec 8 1
  let cycles ← getNat 8 (fun _ => true)
  let nmiPrev ← getBool
  let nmiPending ← getBool
  let irqLevel ← getBool
  let intDue ← getBool
  let jammed ← getBool
  let rstPending ← getBool
  pure ({ a, x, y, s, pc, p := unpackP p },
    { cycles, nmiPrev, nmiPending, irqLevel, intDue, jammed, rstPending })

/-- Group 2: bus. -/
def getBus : Reader (Byte × Memory) := do
  let openBus ← getVec 8 1
  let ram ← getCells 8 1 2048
  pure (openBus, ram)

/-- Group 3: PPU registers. -/
def getPpuRegs (base : Ppu) : Reader Ppu := do
  let ctrl ← getVec 8 1
  let mask ← getVec 8 1
  let vblankFlag ← getBool
  let spr0Hit ← getBool
  let sprOverflow ← getBool
  let oamaddr ← getVec 8 1
  let v ← getVec 15 2
  let t ← getVec 15 2
  let fineX ← getVec 3 1
  let w ← getBool
  let readBuffer ← getVec 8 1
  let ioLatch ← getVec 8 1
  pure { base with ctrl, mask, vblankFlag, spr0Hit, sprOverflow, oamaddr, v, t, fineX, w, readBuffer, ioLatch }

/-- The palette `m` after its entries from `k` on take the values `vs`, in index order: of two entries that are one cell
the later one stays (61_ppu.md R653; log entry 24). -/
def paletteFrom (k : Nat) (vs : List (BitVec 6)) (m : Cells 6) : Cells 6 :=
  match vs with
  | [] => m
  | v :: vs => paletteFrom (k + 1) vs (Cells.write m (palIndex k) v)

/-- OAM from its 256 bytes; the attribute bits that do not exist are not stored (61_ppu.md R654; log entry 24). -/
def oamFrom (vs : List Byte) : Memory :=
  Cells.ofList ((List.range 256).map fun i => oamByte (BitVec.ofNat 8 i) (vs.getD i 0))

/-- Group 4: PPU memories. -/
def getPpuMems (base : Ppu) : Reader (Ppu × VideoMem) := do
  let oam ← getVecs 8 1 256
  let secOam ← getVector 8 32
  let palette ← getVecs 6 1 32
  let ciram ← getCells 8 1 2048
  pure ({ base with secOam }, { oam := oamFrom oam, palette := paletteFrom 0 palette [], ciram })

/-- Group 5: PPU timing. -/
def getPpuTiming (base : Ppu) : Reader Ppu := do
  let scanline ← getNat 2 (fun n => n ≤ 261)
  let dot ← getNat 2 (fun n => n ≤ 340)
  let frameOdd ← getBool
  let warmup ← getBool
  let suppressVbl ← getBool
  pure { base with scanline, dot, frameOdd, warmup, suppressVbl }

/-- A sprite output unit. -/
def getSlot : Reader SpriteSlot := do
  let patLo ← getVec 8 1
  let patHi ← getVec 8 1
  let attr ← getVec 8 1
  let x ← getVec 8 1
  pure { patLo, patHi, attr, x }

/-- `n` sprite output units. -/
def getSlots : Nat → Reader (List SpriteSlot)
  | 0 => pure []
  | n + 1 => do
    let s ← getSlot
    let ss ← getSlots n
    pure (s :: ss)

/-- Group 6: PPU pipeline. -/
def getPpuPipe (base : Ppu) : Reader Ppu := do
  let ntLatch ← getVec 8 1
  let atLatch ← getVec 2 1
  let patLoLatch ← getVec 8 1
  let patHiLatch ← getVec 8 1
  let bgPatLo ← getVec 16 2
  let bgPatHi ← getVec 16 2
  let bgAtLo ← getVec 16 2
  let bgAtHi ← getVec 16 2
  let sprCountNext ← getNat 1 (fun n => n ≤ 8)
  let spr0Next ← getBool
  let ss ← getSlots 8
  let slot0IsSpr0 ← getBool
  pure { base with
    ntLatch, atLatch, patLoLatch, patHiLatch, bgPatLo, bgPatHi, bgAtLo, bgAtHi, sprCountNext, spr0Next
    slots := Vector.ofFn fun i => ss.getD i.val { patLo := 0, patHi := 0, attr := 0, x := 0 }
    slot0IsSpr0 }

/-- An envelope. -/
def getEnvelope : Reader Envelope := do
  let start ← getBool
  let div ← getVec 4 1
  let decay ← getVec 4 1
  pure { start, div, decay }

/-- Groups 8 and 9: a pulse channel. -/
def getPulse : Reader Pulse := do
  let duty ← getVec 2 1
  let halt ← getBool
  let constVol ← getBool
  let vol ← getVec 4 1
  let swEn ← getBool
  let swPer ← getVec 3 1
  let swNeg ← getBool
  let swShift ← getVec 3 1
  let swDiv ← getVec 3 1
  let swReload ← getBool
  let period ← getVec 11 2
  let timer ← getVec 11 2
  let seq ← getVec 3 1
  let len ← getVec 8 1
  let env ← getEnvelope
  pure { duty, halt, constVol, vol, swEn, swPer, swNeg, swShift, swDiv, swReload, period, timer, seq, len, env }

/-- Group 10: triangle. -/
def getTriangle : Reader Triangle := do
  let ctrl ← getBool
  let linLoad ← getVec 7 1
  let lin ← getVec 7 1
  let linReload ← getBool
  let period ← getVec 11 2
  let timer ← getVec 11 2
  let seq ← getVec 5 1
  let len ← getVec 8 1
  pure { ctrl, linLoad, lin, linReload, period, timer, seq, len }

/-- Group 11: noise. -/
def getNoise : Reader Noise := do
  let halt ← getBool
  let constVol ← getBool
  let vol ← getVec 4 1
  let mode ← getBool
  let perIdx ← getVec 4 1
  let timer ← getVecIf 12 2 (fun v => v ≤ 2033)
  let lfsr ← getVecIf 15 2 (fun v => v != 0)
  let len ← getVec 8 1
  let env ← getEnvelope
  pure { halt, constVol, vol, mode, perIdx, timer, lfsr, len, env }

/-- The DMC fields of group 12. -/
def getDmc : Reader Dmc := do
  let irqEn ← getBool
  let loop ← getBool
  let rateIdx ← getVec 4 1
  let level ← getVec 7 1
  let startAddr ← getVecIf 16 2 (fun v => 0xC000 ≤ v && v &&& 63 == 0)
  let length ← getVecIf 12 2 (fun v => 1 ≤ v && v ≤ 4081)
  let addr ← getVecIf 16 2 (fun v => 0x8000 ≤ v)
  let remain ← getVecIf 12 2 (fun v => v ≤ 4081)
  let buffer ← getVec 8 1
  let bufEmpty ← getBool
  let shift ← getVec 8 1
  let bits ← getNat 1 (fun n => 1 ≤ n && n ≤ 8)
  let silence ← getBool
  let timer ← getVecIf 9 2 (fun v => v ≤ 213)
  let irq ← getBool
  pure { irqEn, loop, rateIdx, level, startAddr, length, addr, remain, buffer, bufEmpty, shift, bits, silence, timer,
         irq }

/-- The frame counter fields of group 12. -/
def getFrameCounter : Reader FrameCounter := do
  let mode ← getBool
  let inhibit ← getBool
  let cycle ← getNat 2 (fun n => n ≤ 37286)
  let resetDelay ← getNat 1 (fun n => n ≤ 5)
  let irq ← getBool
  pure { mode, inhibit, cycle, resetDelay, irq }

/-- Groups 8 to 12: the APU. -/
def getApu : Reader Apu := do
  let p1 ← getPulse
  let p2 ← getPulse
  let tri ← getTriangle
  let noi ← getNoise
  let en ← getVec 4 1
  let dmc ← getDmc
  let fc ← getFrameCounter
  let rsAcc ← getNat 4 (fun n => n < 19687500)
  pure { p1, p2, tri, noi, enP1 := en.getLsbD 0, enP2 := en.getLsbD 1, enTri := en.getLsbD 2,
         enNoi := en.getLsbD 3, dmc, fc, rsAcc }

/-- Groups 13 and 14: cartridge. RAMs the image does not have keep their contents, which nothing reads. -/
def getCart (img : Image) (base : Cart) : Reader Cart := do
  let _id ← getVecIf 8 1 (fun v => v == img.mapperId)
  let prgRam ← getCells 8 1 8192
  let chrRam ← if img.chrCount = 0 then getCells 8 1 8192 else pure base.chrRam
  let cartVram ← if img.fourScreen then getCells 8 1 2048 else pure base.cartVram
  pure { prgRam, chrRam, cartVram }

/-- Mapper 1 of group 15. -/
def getMmc1 : Reader Mmc1 := do
  let shift ← getVec 5 1
  let count ← getNat 1 (fun n => n ≤ 4)
  let ctrl ← getVec 5 1
  let chr0 ← getVec 5 1
  let chr1 ← getVec 5 1
  let prg ← getVec 5 1
  let lastWrite ← getVec 64 8
  pure { shift, count, lastWrite, ctrl, chr0, chr1, prg }

/-- Mapper 4 of group 15. -/
def getMmc3 : Reader Mmc3 := do
  let sel ← getVec 3 1
  let prgMode ← getBool
  let chrInv ← getBool
  let r ← getVector 8 8
  let mirror ← getBool
  let ramEn ← getBool
  let ramWp ← getBool
  let latch ← getVec 8 1
  let counter ← getVec 8 1
  let reload ← getBool
  let irqEn ← getBool
  let irq ← getBool
  let a12LastHigh ← getVec 64 8
  pure { sel, prgMode, chrInv, r, mirror, ramEn, ramWp, latch, counter, reload, irqEn, irq, a12LastHigh }

/-- Group 15: the registers of the image's mapper. -/
def getMapper (img : Image) : Reader Mapper :=
  match mapperPowerOn img with
  | .nrom => pure .nrom
  | .mmc1 _ => do let r ← getMmc1; pure (.mmc1 r)
  | .uxrom _ => do let b ← getVec 8 1; pure (.uxrom b)
  | .cnrom _ => do let c ← getVec 8 1; pure (.cnrom c)
  | .mmc3 _ => do let r ← getMmc3; pure (.mmc3 r)
  | .axrom _ => do let r ← getVec 8 1; pure (.axrom r)

/-- Group 16: controllers and scheduler. -/
def getPorts : Reader (Ports × BitVec 32 × Bool) := do
  let latched0 ← getVec 8 1
  let latched1 ← getVec 8 1
  let strobe ← getBool
  let shreg0 ← getVec 8 1
  let shreg1 ← getVec 8 1
  let frameCount ← getVec 32 4
  let frameDone ← getBool
  pure ({ latched0, latched1, strobe, shreg0, shreg1 }, frameCount, frameDone)

/-- Groups 3 to 7: the PPU. -/
def getPpu (base : Ppu) : Reader (Ppu × VideoMem) := do
  let p ← getPpuRegs base
  let (p, vmem) ← getPpuMems p
  let p ← getPpuTiming p
  let p ← getPpuPipe p
  let fbWork ← getCells 9 2 61440
  pure ({ p with fbWork }, vmem)

/-- The payload of a snapshot of image `img`, read over the current MachineState (65_snapshot.md R953, R972, R973). What
the payload does not hold keeps its value; `sprLatch` is what the loaded elements say (log entry 7). -/
def getMachine (img : Image) (base : MachineState) : Reader MachineState := do
  let (regs, hidden) ← getCpu
  let (openBus, ram) ← getBus
  let (ppu, vmem) ← getPpu base.ppu
  let apu ← getApu
  let cart ← getCart img base.cart
  let mapper ← getMapper img
  let (ports, frameCount, frameDone) ← getPorts
  let latch := settledLatch { image := some img, cart, vmem, cycles := hidden.cycles } mapper ppu
  pure { base with regs, hidden, openBus, ram, ppu := { ppu with sprLatch := latch }, vmem, apu, cart, mapper, ports,
                   frameCount, frameDone }

/-! ## Loading -/

/-- The little-endian field of `k` bytes at offset `o`. -/
def fieldAt (data : List Byte) (o k : Nat) : Nat := leValue ((data.drop o).take k)

/-- Header validation (65_snapshot.md R971). -/
def headerOk (img : Image) (data : List Byte) : Bool :=
  data.length ≥ 20 && data.take 4 == [0x4E, 0x43, 0x53, 0x53] && fieldAt data 4 2 == 1 && fieldAt data 6 2 == 0 &&
    fieldAt data 12 4 == data.length - 20 && fieldAt data 8 4 == (compatTag img).toNat

/-- Body validation: the CRC, the length, `mapper_id` and every range (65_snapshot.md R972). It gives the MachineState that
the payload holds. -/
def readBody (img : Image) (base : MachineState) (data : List Byte) : Option MachineState :=
  let body := data.drop 20
  if fieldAt data 16 4 == (crc32 body).toNat then
    match getMachine img base body with
    | some (m, []) => some m
    | _ => none
  else none

/-- What `Deserialize` finds: a bad header, a bad body, or the MachineState to commit (65_snapshot.md R970). -/
inductive LoadOutcome where
  | badHeader
  | badBody
  | commit (m : MachineState)

/-- The checks of `Deserialize`, header first (65_snapshot.md R970 to R972). With no image loaded the header stage fails. -/
def deserialize (image : Option Image) (base : MachineState) (data : List Byte) : LoadOutcome :=
  match image with
  | none => .badHeader
  | some img =>
    if headerOk img data then
      match readBody img base data with
      | some m => .commit m
      | none => .badBody
    else .badHeader

end Sys2Proof.Machine
end

