-- ==== Sys2Proof/Machine/Control.lean ====
section
/-! DEFINITION. The control surface: what a host can do to the core, at a step boundary (64_frame_driver_io.md R908 to R931,
62_apu.md R801, R804, R805, 65_snapshot.md R960 to R975). -/

namespace Sys2Proof.Machine

/-- The operations of the control surface. A path operation carries what the host file system answers, `runFrame` the
host's monotonic clock in seconds (log entries 12 and 15). -/
inductive HostCall where
  | init
  | shutdown
  | loadRomFromPath (path : List Byte) (content : Option (List Byte)) (hostOk : Bool)
  | loadRomFromBytes (data : List Byte) (hostOk : Bool)
  | unloadRom
  | isRomLoaded
  | getRomName (capacity : Nat)
  | start
  | pause
  | resume
  | stop
  | reset
  | powerCycle
  | getState
  | runFrame (now : Rat)
  | getFrameBuffer
  | setFrameCallback (installed : Bool)
  | setAudioCallback (installed : Bool)
  | setOverscan (top bottom left right : Int)
  | getFps
  | getFrameCount
  | setAudioChannels (c : Channels)
  | setInput (i : Int) (mask : Byte)
  | setButton (i b : Int) (pressed : Bool)
  | getAudioSamples (maxSamples : Nat)
  | getSampleRate
  | saveState (slot : Int)
  | loadState (slot : Int)
  | saveStateToBuffer (capacity : Nat)
  | loadStateFromBuffer (data : List Byte)
  | quickSave
  | quickLoad
  deriving DecidableEq, Repr

/-- The view that `getFrameBuffer` returns: the 256 x 240 RGBA bytes and the crop (64_frame_driver_io.md R910, R915). -/
structure FrameView where
  rgba : List Byte
  crop : Overscan
  deriving DecidableEq, Repr

/-- What one `runFrame` hands to the installed callbacks, in order: the frame, and the interleaved samples
(64_frame_driver_io.md R911, R912). -/
structure Delivered where
  frame   : Option FrameView
  samples : Option (List (BitVec 16))
  deriving DecidableEq, Repr

/-- The result of a call. -/
inductive HostResult where
  | unit
  | bool (b : Bool)
  | number (n : Nat)
  | rom (r : RomResult)
  | state (c : Control)
  | name (written : List Byte) (count : Nat)
  | frame (v : Option FrameView)
  | delivered (d : Delivered)
  | fps (bits : BitVec 64)
  | samples (out : List (BitVec 16)) (count : Nat)
  | blob (written : List Byte) (size : Nat)
  deriving DecidableEq, Repr

/-! ## Outputs -/

/-- The bytes of one pixel: PALETTE_RGB of its 9-bit colour and A = 255 (61_ppu.md R713). -/
def pixelBytes (c : BitVec 9) : List Byte :=
  [(Config.paletteRgb c).1, (Config.paletteRgb c).2.1, (Config.paletteRgb c).2.2, 255]

/-- The bytes of the FrameBuffer, all 0 before the first `FrameComplete()` (61_ppu.md R713, 64_frame_driver_io.md
R910). -/
def frameBytes (fb : Option (Cells 9)) : List Byte :=
  match fb with
  | none => List.replicate 245760 0
  | some cells => (Cells.toList cells 61440).flatMap pixelBytes

/-- The view of the current FrameBuffer. -/
def State.frameView (s : State) : FrameView := { rgba := frameBytes s.host.frameBuffer, crop := s.host.overscan }

/-- Stereo frames as interleaved values L, R (62_apu.md R804). -/
def interleave (fs : List (BitVec 16 × BitVec 16)) : List (BitVec 16) := fs.flatMap fun f => [f.1, f.2]

/-- What `getRomName` writes: the name truncated to `capacity - 1` bytes and a terminating 0 (64_frame_driver_io.md
R925). -/
def romNameOut (name : List Byte) (capacity : Nat) : List Byte × Nat :=
  if capacity = 0 then ([], 0) else (name.take (capacity - 1) ++ [0], (name.take (capacity - 1)).length)

/-! ## The state of the surface -/

/-- Changes the host side. -/
def updateHost (f : HostSide → HostSide) (s : State) : State := { s with host := f s.host }

/-- Ready, Running or Paused: an image is loaded and the machine exists. -/
def Control.live : Control → Bool
  | .ready | .running | .paused => true
  | .notInitialised | .idle | .error => false

/-- The core right after `init`, with the parameter SUPPORTED_MAPPERS at `set` (64_frame_driver_io.md R928, 00_scope.md
R9). -/
def initialised (set : Config.MapperSet) : State :=
  { State.reset with host := { HostSide.init with supported := set } }

/-- The core after `shutdown`, and before `init` (64_frame_driver_io.md R928). -/
def shutDown (set : Config.MapperSet) : State :=
  { State.reset with host := { HostSide.init with control := .notInitialised, supported := set } }

/-- What power-on does outside MachineState: the FrameBuffer, the audio buffer, the FPS estimate
(70_reset_and_hazards.md R1000). The InputState is kept, as 70_reset_and_hazards.md R1002 says; 64_frame_driver_io.md R901
says that at power-on "all of these are 0", with `input` among what it lists: DESIGN CHOICE, log entry 30. -/
def HostSide.powerOn (h : HostSide) : HostSide :=
  { h with frameBuffer := none, audio := [], fps := 0, lastCall := none }

/-- A successful `loadROM` (64_frame_driver_io.md R925, 65_snapshot.md R963). -/
def installImage (img : Image) (s : State) : State :=
  { mach := loadedMachine img, image := some img
    host := { s.host.powerOn with control := .ready, quick := none } }

/-- `loadROM` of what the host read (63_cartridge_mappers.md R853, 64_frame_driver_io.md R925). -/
def loadRom (name : List Byte) (data : Option (List Byte)) (hostOk : Bool) (s : State) : HostResult × State :=
  if s.host.control = .idle || s.host.control.live then
    match parseRom s.host.supported name data hostOk with
    | .ok img => (.rom .success, installImage img s)
    | .error r => (.rom r, s)
  else (.rom .error, s)

/-- `unloadROM`: the image and MachineState become absent, which the model holds as the power-on state without an image
(64_frame_driver_io.md R925; log entry 17). -/
def unloadRom (s : State) : State :=
  if s.host.control.live || s.host.control = .error then
    { mach := MachineState.powerOn, image := none
      host := { s.host with control := .idle, audio := [], frameBuffer := none, quick := none } }
  else s

/-- A run-control operation: accepted in the states of `allowed`, it enters `target` (64_frame_driver_io.md R926). -/
def runControl (allowed : List Control) (target : Control) (s : State) : HostResult × State :=
  if allowed.contains s.host.control then (.bool true, updateHost (fun h => { h with control := target }) s)
  else (.bool false, s)

/-- `reset()` (64_frame_driver_io.md R927, 70_reset_and_hazards.md R1001). -/
def hostReset (s : State) : State := if s.host.control.live then { s with mach := s.mach.softReset } else s

/-- `powerCycle()` (64_frame_driver_io.md R927, 70_reset_and_hazards.md R1000). -/
def hostPowerCycle (s : State) : State :=
  match s.image with
  | some img =>
    if s.host.control.live then { s with mach := powerCycled img s.mach, host := s.host.powerOn } else s
  | none => s

/-! ## runFrame (64_frame_driver_io.md R908) -/

/-- The start of a frame: the input masks are latched, `frame_done` cleared. -/
def frameStart (s : State) : State :=
  { s with mach := { s.mach with
      ports := { s.mach.ports with latched0 := s.host.input0, latched1 := s.host.input1 }
      frameDone := false } }

/-- Steps until `frame_done` is 1 at a step boundary, at most `n` of them. -/
def stepsToFrame : Nat → State → State
  | 0, s => s
  | n + 1, s =>
    match step s with
    | .next t => if t.mach.frameDone then t else stepsToFrame n t
    | .fault _ | .refused _ => s

/-- More steps than a frame can take: a frame has 89342 dots, and every step at least three (log entry 19). -/
def frameFuel : Nat := 29782

/-- The frame count after `runFrame`. -/
def countFrame (s : State) : State := { s with mach := { s.mach with frameCount := s.mach.frameCount + 1 } }

/-- `0.9 * fps + 0.1 * (1 / dt)` for a positive `dt`: the double nearest to the exact value (64_frame_driver_io.md R916; log
entry 12). -/
def fpsNext (fps : BitVec 64) (dt : Rat) : BitVec 64 :=
  if fps = doubleInf then doubleInf else doubleOf (9 / 10 * doubleValue fps + 1 / 10 * (1 / dt))

/-- `UpdateFps()` at host time `now` (64_frame_driver_io.md R916). -/
def HostSide.updateFps (now : Rat) (h : HostSide) : HostSide :=
  match h.lastCall with
  | none => { h with lastCall := some now }
  | some t =>
    { h with lastCall := some now
             fps := if 0 < now - t then fpsNext h.fps (now - t) else h.fps }

/-- What the callbacks get at the end of a frame, and the buffer emptied by an audio callback (64_frame_driver_io.md R911,
R912). -/
def deliver (s : State) : Delivered × State :=
  ({ frame := if s.host.frameCb then some s.frameView else none
     samples := if s.host.audioCb then some (interleave s.host.audio) else none },
   updateHost (fun h => { h with audio := if h.audioCb then [] else h.audio }) s)

/-- `runFrame()` (64_frame_driver_io.md R908). Outside Running it is a no-op (R929). -/
def runFrame (now : Rat) (s : State) : HostResult × State :=
  if s.host.control = .running then
    let d := deliver (updateHost (HostSide.updateFps now) (countFrame (stepsToFrame frameFuel (frameStart s))))
    (.delivered d.1, d.2)
  else (.delivered { frame := none, samples := none }, s)

/-! ## Inputs and configuration -/

/-- `setOverscan`: a crop that leaves nothing is ignored (64_frame_driver_io.md R915). -/
def setOverscan (t b l r : Int) (h : HostSide) : HostSide :=
  if 0 ≤ t && 0 ≤ b && 0 ≤ l && 0 ≤ r && t + b < 240 && l + r < 256 then
    { h with overscan := { top := t.toNat, bottom := b.toNat, left := l.toNat, right := r.toNat } }
  else h

/-- `setInput` (64_frame_driver_io.md R921). -/
def setInput (i : Int) (mask : Byte) (h : HostSide) : HostSide :=
  if i = 0 then { h with input0 := mask } else if i = 1 then { h with input1 := mask } else h

/-- The mask with bit `b` set or cleared. -/
def setBit (mask : Byte) (b : Nat) (v : Bool) : Byte :=
  if v then mask ||| (1 <<< b) else mask &&& ~~~((1 : Byte) <<< b)

/-- `setButton` (64_frame_driver_io.md R921). -/
def setButton (i b : Int) (pressed : Bool) (h : HostSide) : HostSide :=
  if 0 ≤ b && b < 8 then
    if i = 0 then { h with input0 := setBit h.input0 b.toNat pressed }
    else if i = 1 then { h with input1 := setBit h.input1 b.toNat pressed }
    else h
  else h

/-- `getAudioSamples` (62_apu.md R804). -/
def getAudioSamples (maxSamples : Nat) (s : State) : HostResult × State :=
  let k := min (maxSamples / 2) s.host.audio.length
  (.samples (interleave (s.host.audio.take k)) (2 * k), updateHost (fun h => { h with audio := h.audio.drop k }) s)

/-! ## Snapshots (65_snapshot.md R960 to R975) -/

/-- The blob of the current machine, where a machine exists. -/
def State.blob (s : State) : Option (List Byte) :=
  match s.image with
  | some img => if s.host.control.live then some (serialize img s.mach) else none
  | none => none

/-- Index of a snapshot slot, where the number names one (65_snapshot.md R962). -/
def slotIndex (slot : Int) : Option (Fin 10) :=
  if h : 0 ≤ slot ∧ slot < 10 then some ⟨slot.toNat, by omega⟩ else none

/-- `saveState(slot)` (65_snapshot.md R962). -/
def saveState (slot : Int) (s : State) : HostResult × State :=
  match slotIndex slot, s.blob with
  | some i, some b => (.bool true, updateHost (fun h => { h with slots := h.slots.set i (some b) }) s)
  | _, _ => (.bool false, s)

/-- `saveStateToBuffer` (65_snapshot.md R961). -/
def saveStateToBuffer (capacity : Nat) (s : State) : HostResult × State :=
  match s.blob with
  | some b => if b.length > capacity then (.blob [] 0, s) else (.blob b b.length, s)
  | none => (.blob [] 0, s)

/-- `quickSave()` (65_snapshot.md R963). -/
def quickSave (s : State) : HostResult × State :=
  match s.blob with
  | some b => (.bool true, updateHost (fun h => { h with quick := some b }) s)
  | none => (.bool false, s)

/-- `Deserialize` with its commit, or the entry into Error (65_snapshot.md R970 to R975). -/
def loadBlob (data : List Byte) (s : State) : HostResult × State :=
  match deserialize s.image s.mach data with
  | .badHeader => (.bool false, s)
  | .badBody => (.bool false, updateHost (fun h => { h with control := .error }) s)
  | .commit m => (.bool true, { s with mach := m, host := { s.host with audio := [] } })

/-- A load operation: accepted in Ready, Running and Paused, of a blob that exists (65_snapshot.md R974). -/
def loadIf (data : Option (List Byte)) (s : State) : HostResult × State :=
  match data with
  | some d => if s.host.control.live then loadBlob d s else (.bool false, s)
  | none => (.bool false, s)

/-- The blob stored in a slot. -/
def State.slotBlob (s : State) (slot : Int) : Option (List Byte) :=
  match slotIndex slot with
  | some i => s.host.slots[i]
  | none => none

/-! ## The surface -/

/-- The failure value of an operation's result type: false, 0 or Error (64_frame_driver_io.md R929). DESIGN CHOICE, log entry
14, for the result types that R929 does not list: `getState` answers Error, `getFrameBuffer` no view, `getRomName`,
`getAudioSamples` and `saveStateToBuffer` write nothing and answer 0, `runFrame` delivers nothing. The same entry: `shutdown`,
`unloadROM`, `reset`, `powerCycle` and the setters, to which the spec gives no result type, answer `unit`, accepted or
refused alike. -/
def HostCall.failure : HostCall → HostResult
  | .init | .isRomLoaded | .start | .pause | .resume | .stop | .saveState _ | .loadState _ | .loadStateFromBuffer _
  | .quickSave | .quickLoad => .bool false
  | .shutdown | .unloadRom | .reset | .powerCycle | .setFrameCallback _ | .setAudioCallback _ | .setOverscan _ _ _ _
  | .setAudioChannels _ | .setInput _ _ | .setButton _ _ _ => .unit
  | .loadRomFromPath _ _ _ | .loadRomFromBytes _ _ => .rom .error
  | .getRomName _ => .name [] 0
  | .getState => .state .error
  | .runFrame _ => .delivered { frame := none, samples := none }
  | .getFrameBuffer => .frame none
  | .getFps => .fps 0
  | .getFrameCount | .getSampleRate => .number 0
  | .getAudioSamples _ => .samples [] 0
  | .saveStateToBuffer _ => .blob [] 0

/-- An operation on an initialised core. DESIGN CHOICE, log entry 14: with no ROM loaded `getRomName` writes no byte, no
terminating 0 either, whatever the capacity; 64_frame_driver_io.md R925 gives only its result, 0. DESIGN CHOICE, log entry
17: with no ROM loaded, where there is no MachineState, `getFrameCount` answers 0. -/
def callLive (c : HostCall) (s : State) : HostResult × State :=
  match c with
  | .init => (.bool false, s)
  | .shutdown => (.unit, shutDown s.host.supported)
  | .loadRomFromPath path content hostOk => loadRom (romName path) content hostOk s
  | .loadRomFromBytes data hostOk => loadRom [] (some data) hostOk s
  | .unloadRom => (.unit, unloadRom s)
  | .isRomLoaded => (.bool s.image.isSome, s)
  | .getRomName capacity =>
    match s.image with
    | some img => (.name (romNameOut img.name capacity).1 (romNameOut img.name capacity).2, s)
    | none => (.name [] 0, s)
  | .start => runControl [.ready] .running s
  | .pause => runControl [.running] .paused s
  | .resume => runControl [.paused] .running s
  | .stop => runControl [.running, .paused] .ready s
  | .reset => (.unit, hostReset s)
  | .powerCycle => (.unit, hostPowerCycle s)
  | .getState => (.state s.host.control, s)
  | .runFrame now => runFrame now s
  | .getFrameBuffer => (.frame (some s.frameView), s)
  | .setFrameCallback installed => (.unit, updateHost (fun h => { h with frameCb := installed }) s)
  | .setAudioCallback installed => (.unit, updateHost (fun h => { h with audioCb := installed }) s)
  | .setOverscan t b l r => (.unit, updateHost (setOverscan t b l r) s)
  | .getFps => (.fps s.host.fps, s)
  | .getFrameCount => (.number s.mach.frameCount.toNat, s)
  | .setAudioChannels c => (.unit, updateHost (fun h => { h with channels := c }) s)
  | .setInput i mask => (.unit, updateHost (setInput i mask) s)
  | .setButton i b pressed => (.unit, updateHost (setButton i b pressed) s)
  | .getAudioSamples n => getAudioSamples n s
  | .getSampleRate => (.number Config.sampleRate, s)
  | .saveState slot => saveState slot s
  | .loadState slot => loadIf (s.slotBlob slot) s
  | .saveStateToBuffer capacity => saveStateToBuffer capacity s
  | .loadStateFromBuffer data => loadIf (some data) s
  | .quickSave => quickSave s
  | .quickLoad => loadIf s.host.quick s

/-- A call of the control surface: before `init` every other operation is a no-op with its failure value
(64_frame_driver_io.md R928). -/
def call (c : HostCall) (s : State) : HostResult × State :=
  if s.host.control = .notInitialised then
    match c with
    | .init => (.bool true, initialised s.host.supported)
    | c => (c.failure, s)
  else callLive c s

/-- A call from inside a callback: rejected, and nothing changes (64_frame_driver_io.md R913; log entry 14). -/
def callFromCallback (c : HostCall) (s : State) : HostResult × State := (c.failure, s)

end Sys2Proof.Machine
end

