-- ==== Sys2Proof/Safety.lean ====
section
/-! DEFINITION. The terms in which claims about the machine are stated: what memory holds, what a run keeps, how an
instruction completes, the invariant of a safe state. -/

namespace Sys2Proof.Machine

/-! ## What memory holds -/

/-- The byte that memory holds at CPU address `a`: work RAM, or what the cartridge drives there. Nothing for the device
registers and for the addresses nothing drives (20_memory.md R110). -/
def memByte (a : Word) (s : State) : Option Byte :=
  match region a with
  | .workRam i => some (Cells.read s.mach.ram i)
  | .cartridge => mapperCpuRead s.image s.mach.cart s.mach.mapper a
  | .ppuReg _ | .apuChannel _ | .oamDma | .apuStatus | .port1 | .port2 | .testRegs => none

/-- Does a write to `e` reach cell `i` of PRG RAM (63_cartridge_mappers.md R858, R865, R873)? -/
def reachesPrgRam (s : State) (e : Word) (i : Nat) : Bool :=
  s.image.isSome && s.mach.mapper.ramWritable && decide (0x6000 ≤ e ∧ e < 0x8000) && e.toNat == 0x6000 + i

/-- The palette lists none of the cells $10, $14, $18 and $1C: they are those of $00, $04, $08 and $0C (61_ppu.md
R653). -/
def palettePlain (m : Cells 6) : Bool := m.all fun e => palIndex e.1 == e.1

/-- The attribute bytes of OAM lack bits 4-2 (61_ppu.md R654). -/
def oamPlain (m : Memory) : Bool := m.all fun e => e.1 % 4 != 2 || e.2 &&& 0x1C == 0

/-- Every memory is in canonical form and holds nothing outside its size (20_memory.md R105, 61_ppu.md R651,
63_cartridge_mappers.md R851); OAM and the palette hold only the bits and the cells they have (61_ppu.md R653, R654). -/
structure MemoriesOk (m : MachineState) : Prop where
  ram      : Memory.wf m.ram = true ∧ Cells.below m.ram 2048 = true
  prgRam   : Memory.wf m.cart.prgRam = true ∧ Cells.below m.cart.prgRam 8192 = true
  chrRam   : Memory.wf m.cart.chrRam = true ∧ Cells.below m.cart.chrRam 8192 = true
  cartVram : Memory.wf m.cart.cartVram = true ∧ Cells.below m.cart.cartVram 2048 = true
  oam      : Memory.wf m.vmem.oam = true ∧ Cells.below m.vmem.oam 256 = true
  palette  : Cells.wf m.vmem.palette = true ∧ Cells.below m.vmem.palette 32 = true
  ciram    : Memory.wf m.vmem.ciram = true ∧ Cells.below m.vmem.ciram 2048 = true
  fbWork   : Cells.wf m.ppu.fbWork = true ∧ Cells.below m.ppu.fbWork 61440 = true
  oamBits  : oamPlain m.vmem.oam = true
  palCells : palettePlain m.vmem.palette = true

/-! ## Frames -/

/-- What no instruction and no interrupt changes: the cartridge image, the host side but for its two output buffers, the
frame count, the latched input, a pending reset. -/
structure Kept (s t : State) : Prop where
  image      : t.image = s.image
  host       : t.host = { s.host with frameBuffer := t.host.frameBuffer, audio := t.host.audio }
  frameCount : t.mach.frameCount = s.mach.frameCount
  latched0   : t.mach.ports.latched0 = s.mach.ports.latched0
  latched1   : t.mach.ports.latched1 = s.mach.ports.latched1
  rstPending : t.mach.hidden.rstPending = s.mach.hidden.rstPending

/-- Nothing is stored: every byte of every memory is as before, by address and by cell, and no OAM DMA is asked for. -/
structure MemoryKept (s t : State) : Prop where
  bytes   : ∀ a, memByte a t = memByte a s
  ram     : t.mach.ram = s.mach.ram
  cart    : t.mach.cart = s.mach.cart
  vmem    : t.mach.vmem = s.mach.vmem
  dmaReq  : t.mach.dmaReq = s.mach.dmaReq
  dmaPage : t.mach.dmaPage = s.mach.dmaPage

/-- The byte `v` is stored at address `e` and nothing else is: by cell of work RAM and of PRG RAM; the video memories change
only where `e` is $2004, $2007 or a mirror; an OAM DMA is asked for only by $4014, and the page is that of this, the last
write (20_memory.md R115, against 70_reset_and_hazards.md R1021: the model's choice, log entry 26). By address: outside the
bytes that are the same cell every byte reads as before, a write to mapper registers ($8000 up) being able to move the ROM
banks. -/
structure StoredAt (e : Word) (v : Byte) (s t : State) : Prop where
  ram     : ∀ i, Cells.read t.mach.ram i = if region e = .workRam i then v else Cells.read s.mach.ram i
  prgRam  : ∀ i, Cells.read t.mach.cart.prgRam i = if reachesPrgRam s e i then v else Cells.read s.mach.cart.prgRam i
  video   : region e ≠ .ppuReg 4 → region e ≠ .ppuReg 7 →
              t.mach.vmem = s.mach.vmem ∧ t.mach.cart.chrRam = s.mach.cart.chrRam ∧
                t.mach.cart.cartVram = s.mach.cart.cartVram
  dmaReq  : t.mach.dmaReq = (s.mach.dmaReq || e == 0x4014)
  dmaPage : t.mach.dmaPage = if e = 0x4014 then v else s.mach.dmaPage
  low     : ∀ a, a < 0x2000 → memByte a t = if region a = region e then some v else memByte a s
  high    : ∀ a, 0x4020 ≤ a → e < 0x8000 →
              memByte a t = if a = e ∧ reachesPrgRam s e (e.toNat - 0x6000) = true then some v else memByte a s
  openBus : t.mach.openBus = v

/-! ## Completion

Each says that the instruction ANSWERS A NEXT STATE from every state (a store: from every state whose memories are in
canonical form), and what that state holds: all registers, the decision
of the poll, the count of cycles, the frame. `s` is the state after the instruction's own bytes are fetched. -/

/-- An implied or accumulator instruction (40_addressing.md R202). -/
def ImpliedCompletes (i : Instr) (result : Regs → Regs) : Prop :=
  ∀ s, ∃ t, exec i s = .next t ∧ t.mach.regs = result s.mach.regs ∧ t.mach.hidden.intDue = pollResult s ∧
    t.mach.hidden.jammed = s.mach.hidden.jammed ∧ t.mach.hidden.cycles = s.mach.hidden.cycles + 1 ∧ Kept s t ∧
    MemoryKept s t

/-- An immediate instruction with operand `nn`; its cycles and its poll are those of the fetch (40_addressing.md R203). -/
def ImmediateCompletes (i : Instr) (nn : Byte) (result : Byte → Regs → Regs) : Prop :=
  ∀ s, exec i s = .next { s with mach := { s.mach with regs := result nn s.mach.regs } }

/-- The state in which the data access of a class R or W instruction is made, after the poll. -/
def accessState (addr : AddrFn) (s : State) : State := poll (addr s).2

/-- A class R instruction with address `addr`: `result` of the byte its data read delivers (40_addressing.md R200, R213,
R214). -/
def ReadCompletes (i : Instr) (addr : AddrFn) (result : Byte → Regs → Regs) : Prop :=
  ∀ s, ∃ t, exec i s = .next t ∧ t.mach.regs = result (peek (addr s).1 (accessState addr s)) s.mach.regs ∧
    t.mach.hidden.intDue = pollResult (addr s).2 ∧ t.mach.hidden.jammed = s.mach.hidden.jammed ∧
    t.mach.hidden.cycles = (addr s).2.mach.hidden.cycles + 1 ∧ Kept s t ∧ MemoryKept s t

/-- An implied NOP: beside the registers, the whole next state is that of the dummy read at PC, with what that read does to
devices and clocks (40_addressing.md R202, 45_stack_flags_misc.md R461, 46_unofficial.md R514). -/
def ImpliedNopCompletes (i : Instr) : Prop :=
  ImpliedCompletes i id ∧ ∀ s, exec i s = .next (dummyRead s.mach.regs.pc (poll s))

/-- A NOP of class R: beside the registers, the whole next state is that of the data read at the mode's address, with what
that read does to devices and clocks (40_addressing.md R200, 46_unofficial.md R514). -/
def ReadNopCompletes (i : Instr) (addr : AddrFn) : Prop :=
  ReadCompletes i addr (fun _ r => r) ∧ ∀ s, exec i s = .next (memRead (addr s).1 (accessState addr s)).2

/-- A class W instruction with address `addr`: `val` of the registers is stored there (40_addressing.md R200, R213,
R214). -/
def WriteCompletes (i : Instr) (addr : AddrFn) (val : Regs → Byte) (result : Regs → Regs) : Prop :=
  ∀ s, MemoriesOk s.mach → ∃ t, exec i s = .next t ∧ t.mach.regs = result s.mach.regs ∧
    t.mach.hidden.intDue = pollResult (addr s).2 ∧ t.mach.hidden.jammed = s.mach.hidden.jammed ∧
    t.mach.hidden.cycles = (addr s).2.mach.hidden.cycles + 1 ∧ Kept s t ∧
    StoredAt (addr s).1 (val s.mach.regs) s t

/-- A class M instruction with address `addr`: `new` of the byte read and the registers is stored there, after the dummy
write of the byte read; `result` of them are the registers after (40_addressing.md R200, R213, R214). -/
def ModifyCompletes (i : Instr) (addr : AddrFn) (new : Byte → Regs → Byte) (result : Byte → Regs → Regs) : Prop :=
  ∀ s, MemoriesOk s.mach → ∃ t, exec i s = .next t ∧ t.mach.regs = result (peek (addr s).1 (addr s).2) s.mach.regs ∧
    t.mach.hidden.intDue =
      pollResult (memWrite (addr s).1 (peek (addr s).1 (addr s).2) (dummyRead (addr s).1 (addr s).2)) ∧
    t.mach.hidden.jammed = s.mach.hidden.jammed ∧
    t.mach.hidden.cycles = (addr s).2.mach.hidden.cycles + 3 ∧ Kept s t ∧
    StoredAt (addr s).1 (new (peek (addr s).1 (addr s).2) s.mach.regs) s t

/-! ## The invariant -/

/-- The ranges of the PPU counters (65_snapshot.md R972). -/
structure PpuOk (p : Ppu) : Prop where
  scanline     : p.scanline ≤ 261
  dot          : p.dot ≤ 340
  sprCountNext : p.sprCountNext ≤ 8

/-- The ranges of the APU elements (65_snapshot.md R972). -/
structure ApuOk (a : Apu) : Prop where
  noiTimer   : a.noi.timer ≤ 2033
  lfsr       : a.noi.lfsr ≠ 0
  dmcTimer   : a.dmc.timer ≤ 213
  dmcBits    : 1 ≤ a.dmc.bits ∧ a.dmc.bits ≤ 8
  dmcLength  : 1 ≤ a.dmc.length ∧ a.dmc.length ≤ 4081
  dmcRemain  : a.dmc.remain ≤ 4081
  dmcStart   : 0xC000 ≤ a.dmc.startAddr ∧ a.dmc.startAddr &&& 63 = 0
  dmcAddr    : 0x8000 ≤ a.dmc.addr
  fcCycle    : a.fc.cycle ≤ 37286
  resetDelay : a.fc.resetDelay ≤ 5
  rsAcc      : a.rsAcc < Config.resamplerModulus

/-- The range of the mapper registers (65_snapshot.md R972). -/
def MapperOk : Mapper → Prop
  | .mmc1 r => r.count ≤ 4
  | .nrom | .uxrom _ | .cnrom _ | .mmc3 _ | .axrom _ => True

/-- THE INVARIANT of the machine at a step boundary: canonical memories, elements in range, no OAM DMA pending
(20_memory.md R115, 65_snapshot.md R972), and the model's own sprite latch a function of the rest (log entry 7). -/
structure State.Inv (s : State) : Prop where
  memories : MemoriesOk s.mach
  ppu      : PpuOk s.mach.ppu
  apu      : ApuOk s.mach.apu
  mapper   : MapperOk s.mach.mapper
  noDma    : s.mach.dmaReq = false
  latch    : s.mach.ppu.sprLatch = s.settledLatch

/-- A run that goes on: the step answers a next state. -/
def Goes (s : State) : Prop := ∃ t, step s = .next t

/-! ## Pushes and pulls -/

/-- What the pushes of the bytes `bs`, in this order and from stack pointer `sp`, leave in cell `i` of work RAM, `none` where
they store nothing (10_state.md R54). -/
def pushedByte (sp : Byte) (bs : List Byte) (i : Nat) : Option Byte :=
  match bs with
  | [] => none
  | b :: rest => if i = 256 + sp.toNat then some b else pushedByte (sp - 1) rest i

/-- The bytes `bs` are pushed and nothing else is stored: by cell of work RAM, and by address. -/
structure Pushed (bs : List Byte) (s t : State) : Prop where
  ram     : ∀ i, Cells.read t.mach.ram i = (pushedByte s.mach.regs.s bs i).getD (Cells.read s.mach.ram i)
  low     : ∀ a, a < 0x2000 →
              memByte a t = some ((pushedByte s.mach.regs.s bs (a.toNat % 2048)).getD (Cells.read s.mach.ram (a.toNat % 2048)))
  high    : ∀ a, 0x2000 ≤ a → memByte a t = memByte a s
  cart    : t.mach.cart = s.mach.cart
  vmem    : t.mach.vmem = s.mach.vmem
  dmaReq  : t.mach.dmaReq = s.mach.dmaReq
  dmaPage : t.mach.dmaPage = s.mach.dmaPage

/-- The byte that the `k`-th pull from here delivers, `k` from 1 (10_state.md R54). -/
def pulledByte (s : State) (k : Nat) : Byte := Cells.read s.mach.ram (256 + (s.mach.regs.s.toNat + k) % 256)

/-- The word that a vector fetch delivers, where the byte before it on the bus was `bus`: what the cartridge drives, open bus
where it drives nothing (20_memory.md R112, R114). -/
def vectorWord (vec : Word) (bus : Byte) (s : State) : Word :=
  word ((memByte (vec + 1) s).getD ((memByte vec s).getD bus)) ((memByte vec s).getD bus)

/-! ## Branches -/

/-- A conditional branch on `cond` (44_control_flow.md R400): not taken, taken in its page, taken across a page. -/
def BranchCompletes (i : Instr) (cond : Flags → Bool) (oo : Byte) : Prop :=
  ∀ s, let a0 := s.mach.regs.pc
    let target := BitVec.ofInt 16 (a0.toNat + oo.toInt)
    if cond s.mach.regs.p = false then exec i s = .next s
    else ∃ t, exec i s = .next t ∧ t.mach.regs = { s.mach.regs with pc := target } ∧
      t.mach.hidden.jammed = s.mach.hidden.jammed ∧ Kept s t ∧ MemoryKept s t ∧
      (if target.toNat / 256 = a0.toNat / 256 then
        t.mach.hidden.intDue = s.mach.hidden.intDue ∧ t.mach.hidden.cycles = s.mach.hidden.cycles + 1
      else
        t.mach.hidden.intDue = pollResult (dummyRead a0 s) ∧ t.mach.hidden.cycles = s.mach.hidden.cycles + 2)

/-! ## Results in the spec's numbers

The results that the rules of 41_load_store_transfer.md to 46_unofficial.md give, in numbers and not in the operations that
the meanings use. -/

namespace Spec

/-- An integer modulo 2^8 (00_scope.md R11). -/
def byte (n : Int) : Byte := BitVec.ofInt 8 n

/-- N and Z of `v` (00_scope.md R17). -/
def nz (v : Byte) (f : Flags) : Flags := { f with n := decide (128 ≤ v.toNat), z := decide (v.toNat = 0) }

/-- A bit as a number. -/
def num (b : Bool) : Int := if b then 1 else 0

/-- Bit `i` of `v`, by division. -/
def bit (v : Byte) (i : Nat) : Bool := decide (v.toNat / 2 ^ i % 2 = 1)

def lda (v : Byte) (r : Regs) : Regs := { r with a := v, p := nz v r.p }
def ldx (v : Byte) (r : Regs) : Regs := { r with x := v, p := nz v r.p }
def ldy (v : Byte) (r : Regs) : Regs := { r with y := v, p := nz v r.p }
def lax (v : Byte) (r : Regs) : Regs := { r with a := v, x := v, p := nz v r.p }

/-- ADC: the sum, its carry, and its signed overflow (42_arithmetic_logic.md R301, R303). -/
def adc (v : Byte) (r : Regs) : Regs :=
  let sum : Int := r.a.toNat + v.toNat + num r.p.c
  let signed : Int := r.a.toInt + v.toInt + num r.p.c
  { r with a := byte sum
           p := { nz (byte sum) r.p with c := decide (256 ≤ sum), v := decide (signed < -128 ∨ 127 < signed) } }

/-- SBC: the difference with the borrow 1 - C, C set where there is no borrow, and the signed overflow
(42_arithmetic_logic.md R301, R304). -/
def sbc (v : Byte) (r : Regs) : Regs :=
  let diff : Int := r.a.toNat - v.toNat - (1 - num r.p.c)
  let signed : Int := r.a.toInt - v.toInt - (1 - num r.p.c)
  { r with a := byte diff
           p := { nz (byte diff) r.p with c := decide (0 ≤ diff), v := decide (signed < -128 ∨ 127 < signed) } }

/-- `Compare(x, m)` (42_arithmetic_logic.md R302). -/
def compare (x m : Byte) (f : Flags) : Flags :=
  { nz (byte (x.toNat - m.toNat)) f with c := decide (m.toNat ≤ x.toNat) }

def cmp (v : Byte) (r : Regs) : Regs := { r with p := compare r.a v r.p }
def cpx (v : Byte) (r : Regs) : Regs := { r with p := compare r.x v r.p }
def cpy (v : Byte) (r : Regs) : Regs := { r with p := compare r.y v r.p }

/-- BIT (42_arithmetic_logic.md R308). -/
def bitTest (v : Byte) (r : Regs) : Regs :=
  { r with p := { r.p with z := decide ((r.a &&& v).toNat = 0), n := bit v 7, v := bit v 6 } }

/-- The shifts and rotates: result and carry (43_shift_rotate.md R350 to R353). -/
def asl (x : Byte) (_ : Bool) : Byte × Bool := (byte (2 * x.toNat), bit x 7)
def lsr (x : Byte) (_ : Bool) : Byte × Bool := (byte (x.toNat / 2 : Nat), bit x 0)
def rol (x : Byte) (c : Bool) : Byte × Bool := (byte (2 * x.toNat + num c), bit x 7)
def ror (x : Byte) (c : Bool) : Byte × Bool := (byte ((x.toNat / 2 : Nat) + 128 * num c), bit x 0)

/-- The flags after a shift with result and carry `out`. -/
def shifted (out : Byte × Bool) (r : Regs) : Regs := { r with p := { nz out.1 r.p with c := out.2 } }

/-- The registers after SLO, RLA, SRE and RRA of the byte `old`: the shifted byte works on A, after the carry of the shift
(46_unofficial.md R501 to R504). -/
def withCarry (c : Bool) (r : Regs) : Regs := { r with p := { r.p with c := c } }
def slo (old : Byte) (r : Regs) : Regs :=
  lda (r.a ||| (asl old r.p.c).1) (withCarry (asl old r.p.c).2 r)
def rla (old : Byte) (r : Regs) : Regs :=
  lda (r.a &&& (rol old r.p.c).1) (withCarry (rol old r.p.c).2 r)
def sre (old : Byte) (r : Regs) : Regs :=
  lda (r.a ^^^ (lsr old r.p.c).1) (withCarry (lsr old r.p.c).2 r)
def rra (old : Byte) (r : Regs) : Regs :=
  adc (ror old r.p.c).1 (withCarry (ror old r.p.c).2 r)

/-- ANC, ALR, ARR, SBX (46_unofficial.md R509 to R512). -/
def anc (v : Byte) (r : Regs) : Regs :=
  { r with a := r.a &&& v, p := { nz (r.a &&& v) r.p with c := bit (r.a &&& v) 7 } }
def alr (v : Byte) (r : Regs) : Regs :=
  let a := byte ((r.a &&& v).toNat / 2 : Nat)
  { r with a := a, p := { nz a r.p with c := bit (r.a &&& v) 0 } }
def arr (v : Byte) (r : Regs) : Regs :=
  let a := byte (((r.a &&& v).toNat / 2 : Nat) + 128 * num r.p.c)
  { r with a := a, p := { nz a r.p with c := bit a 6, v := bit a 6 != bit a 5 } }
def sbx (v : Byte) (r : Regs) : Regs :=
  { r with x := byte ((r.a &&& r.x).toNat - v.toNat), p := compare (r.a &&& r.x) v r.p }

/-- LAS (46_unofficial.md R521). -/
def las (v : Byte) (r : Regs) : Regs := { r with a := v &&& r.s, x := v &&& r.s, s := v &&& r.s, p := nz (v &&& r.s) r.p }

/-- The image of P that is pushed: N, V, 1, B, D, I, Z, C from bit 7 down (10_state.md R57). -/
def image (b : Bool) (f : Flags) : Byte :=
  byte (128 * num f.n + 64 * num f.v + 32 + 16 * num b + 8 * num f.d + 4 * num f.i + 2 * num f.z + num f.c)

/-- The flags of a pulled image (10_state.md R58). -/
def flags (v : Byte) : Flags := { n := bit v 7, v := bit v 6, d := bit v 3, i := bit v 2, z := bit v 1, c := bit v 0 }

/-- The value and the address of an SH store (46_unofficial.md, section 4): `H` is the base's high byte plus one. -/
def shValue (src : Byte) (base : Word) : Byte := src &&& byte ((base.toNat / 256 : Nat) + 1)
def shAddress (src : Byte) (base : Word) (index : Byte) : Word :=
  if base.toNat % 256 + index.toNat < 256 then BitVec.ofNat 16 (base.toNat + index.toNat)
  else BitVec.ofNat 16 (256 * (shValue src base).toNat + (base.toNat + index.toNat) % 256)

end Spec

/-- An SH store: after the cycle that reads before the fix-up, `src & H` is stored; the registers become `result`
(46_unofficial.md R517 to R520). -/
def ShCompletes (i : Instr) (addr : AddrFn) (src : Regs → Byte) (base : State → Word) (index : Regs → Byte)
    (result : Regs → Regs) : Prop :=
  ∀ s, MemoriesOk s.mach → ∃ t, exec i s = .next t ∧ t.mach.regs = result s.mach.regs ∧
    t.mach.hidden.intDue = pollResult (addr s).2 ∧ t.mach.hidden.jammed = s.mach.hidden.jammed ∧
    t.mach.hidden.cycles = (addr s).2.mach.hidden.cycles + 1 ∧ Kept s t ∧
    StoredAt (Spec.shAddress (src s.mach.regs) (base s) (index s.mach.regs)) (Spec.shValue (src s.mach.regs) (base s)) s t

/-! ## Snapshots -/

/-- The mapper is of the variant of `p` (63_cartridge_mappers.md R850). -/
def SameVariant (p m : Mapper) : Prop :=
  match p, m with
  | .nrom, .nrom | .mmc1 _, .mmc1 _ | .uxrom _, .uxrom _ | .cnrom _, .cnrom _ | .mmc3 _, .mmc3 _
  | .axrom _, .axrom _ => True
  | _, _ => False

/-- What the snapshot format takes for granted beside the invariant: the 64-bit count of cycles has not wrapped, the mapper is
the image's (65_snapshot.md R953; log entries 21 and 22). -/
structure SnapshotFits (img : Image) (m : MachineState) : Prop where
  cycles : m.hidden.cycles < 2 ^ 64
  mapper : SameVariant (mapperPowerOn img) m.mapper

/-- The bytes of the mapper registers in a snapshot of image `img`: group 15 of 65_snapshot.md R953. -/
def mapperBytes (img : Image) : Nat :=
  match img.mapperId.toNat with
  | 1 => 14
  | 2 | 3 | 7 => 1
  | 4 => 27
  | _ => 0

end Sys2Proof.Machine
end

