-- ==== Sys2Proof/Certificates/Slice0/Obligations.lean ====
section
/-! DEFINITION. The statements about the model. What each one states, and the rules it rests on, is in OBLIGATIONS.json; the
terms are those of Sys2Proof/Safety.lean. -/

open Sys2Proof Sys2Proof.Machine

/-- O1. Words written out from the encoding tables decode to their instructions (30_encoding.md R150, R151, R155). -/
def Obligations.DecodesTheListedWords : Prop :=
  decode [0xA9, 0x42] = .ok (.ldaImm 0x42, []) ∧
    decode [0xBD, 0x34, 0x12, 0xEA] = .ok (.ldaAbx 0x1234, [0xEA]) ∧
    decode [0x91, 0x10] = .ok (.staIzy 0x10, []) ∧
    decode [0xBA] = .ok (.tsx, []) ∧
    decode [0x61, 0x80] = .ok (.adcIzx 0x80, []) ∧
    decode [0x2C, 0x02, 0x20] = .ok (.bitAbs 0x2002, []) ∧
    decode [0xC0, 0x07] = .ok (.cpyImm 0x07, []) ∧
    decode [0xF6, 0x10] = .ok (.incZpx 0x10, []) ∧
    decode [0x6A, 0x00] = .ok (.rorA, [0x00]) ∧
    decode [0xD0, 0xFC] = .ok (.bne 0xFC, []) ∧
    decode [0x6C, 0xFF, 0x02] = .ok (.jmpInd 0x02FF, []) ∧
    decode [0x00, 0x7F] = .ok (.brk 0x7F, []) ∧
    decode [0x28] = .ok (.plp, []) ∧
    decode [0x78] = .ok (.sei, []) ∧
    decode [0xFC, 0x01, 0x80] = .ok (.nopAbxFC 0x8001, []) ∧
    decode [0x97, 0x05] = .ok (.saxZpy 0x05, []) ∧
    decode [0x5B, 0x00, 0x03] = .ok (.sreAby 0x0300, []) ∧
    decode [0x9E, 0xFF, 0x02] = .ok (.shxAby 0x02FF, []) ∧
    decode [0xB2] = .ok (.jamB2, []) ∧
    decode [0x20, 0x00] = .error (.truncated 0x20 3)

/-- O2. Every instruction is read back from its own encoding (30_encoding.md R150, R151, R152, R155). -/
def Obligations.DecodeInvertsEncode : Prop :=
  ∀ (i : Instr) (rest : List Byte), decode (encode i ++ rest) = .ok (i, rest)

/-- O3. Whatever the decoder reads is the encoding of what it answers (30_encoding.md R150, R151, R155, R158). -/
def Obligations.EncodeInvertsDecode : Prop :=
  ∀ (bs : List Byte) (i : Instr) (rest : List Byte), decode bs = .ok (i, rest) → bs = encode i ++ rest

/-- O4. The opcode byte alone decides the length, and no opcode is refused (30_encoding.md R150, R156, R157, R158). -/
def Obligations.OpcodeAloneDecidesTheLength : Prop :=
  ∀ op : Byte, ∃ n, 1 ≤ n ∧ n ≤ 3 ∧ ∀ bs : List Byte,
    (n ≤ bs.length + 1 → ∃ i, decode (op :: bs) = .ok (i, bs.drop (n - 1)) ∧ i.length = n) ∧
      (bs.length + 1 < n → decode (op :: bs) = .error (.truncated op n))

/-- O5. An instruction step is exec of the decoded instruction, then the OAM DMA it asked for (64_frame_driver_io.md
R907, 60_exceptions.md R609, 20_memory.md R115). -/
def Obligations.StepRunsTheDecodedInstruction : Prop :=
  ∀ (s : State) (i : Instr) (rest : List Byte), stepKind s = .instruction → decode (fetchInstr s).bytes = .ok (i, rest) →
    step s = finish (exec i (fetchInstr s).state) ∧
      ∀ t, finish (.next t) = .next (if t.mach.dmaReq then oamDma t else t)

/-- O6. An instruction step runs the instruction whose bytes memory holds at PC (10_state.md R55, 20_memory.md R120,
40_addressing.md R201, R203, R213, 44_control_flow.md R409, R411). The model reads JSR ahead of its third fetch cycle
for decoding (log entry 11). -/
def Obligations.StepRunsTheInstructionInMemory : Prop :=
  ∀ (s : State) (b0 b1 b2 : Byte), let pc := s.mach.regs.pc
    stepKind s = .instruction → memByte pc s = some b0 → memByte (pc + 1) s = some b1 → memByte (pc + 2) s = some b2 →
    ∃ i rest u, let n := if b0 = 0x20 then 2 else i.length
      decode [b0, b1, b2] = .ok (i, rest) ∧ step s = finish (exec i u) ∧
      u.mach.regs = { s.mach.regs with pc := pc + BitVec.ofNat 16 n } ∧
      u.mach.hidden.cycles = s.mach.hidden.cycles + n ∧ u.mach.hidden.jammed = s.mach.hidden.jammed ∧
      u.mach.hidden.intDue =
        (if i.mode = .immediate ∨ i.mode = .relative then pollResult (dummyRead pc s)
         else if b0 = 0x4C then pollResult (dummyRead (pc + 1) (incPc (dummyRead pc s)))
         else s.mach.hidden.intDue) ∧
      Kept s u ∧ MemoryKept s u

/-- O7. No state stops the machine, and every step takes at least one cycle (30_encoding.md R156, R158,
60_exceptions.md R600, R627, 64_frame_driver_io.md R907, R908). -/
def Obligations.EveryStepGoesOn : Prop :=
  ∀ s : State, ∃ t, step s = .next t ∧ s.mach.hidden.cycles < t.mach.hidden.cycles

/-- O8. Every step keeps the memories canonical, the counters in range and the sprite latch settled (20_memory.md
R105, R115, 61_ppu.md R651, R690, 62_apu.md R751, R767, R789, R802, 63_cartridge_mappers.md R851, R861, 65_snapshot.md
R972). The canonical form of memories is the model's own; fc_cycle at most 37286 is R751's range, kept by stopping the
count there (log entry 25); the sprite latch between the two pattern fetches of a slot is the model's own, and settled
means that it is a function of the other elements (log entry 7). -/
def Obligations.EveryStepKeepsTheInvariant : Prop :=
  ∀ s t : State, s.Inv → step s = .next t → t.Inv

/-- O9. The reset state meets the invariant (70_reset_and_hazards.md R1000, 61_ppu.md R651, 62_apu.md R751). -/
def Obligations.ResetMeetsTheInvariant : Prop :=
  State.reset.Inv

/-- O10. No step changes the cartridge image, the host side, the frame count or the latched input, or leaves a reset
pending (20_memory.md R120, 63_cartridge_mappers.md R883, 64_frame_driver_io.md R902, R908, R921, 10_state.md R74). -/
def Obligations.NoStepChangesImageOrHost : Prop :=
  ∀ s t : State, step s = .next t →
    t.image = s.image ∧ t.host = { s.host with frameBuffer := t.host.frameBuffer, audio := t.host.audio } ∧
      t.mach.frameCount = s.mach.frameCount ∧ t.mach.ports.latched0 = s.mach.ports.latched0 ∧
      t.mach.ports.latched1 = s.mach.ports.latched1 ∧ t.mach.hidden.rstPending = false

/-- O11. The scheduler's priority, the sampling of the interrupt lines, and the poll (60_exceptions.md R602, R603,
R604, R609, R612, 64_frame_driver_io.md R906). -/
def Obligations.SchedulerSamplingAndPoll : Prop :=
  ∀ s : State,
    (step s = if s.mach.hidden.rstPending = true then .next (resetSequence s)
      else if s.mach.apu.dmc.bufEmpty = true ∧ s.mach.apu.dmc.remain ≠ 0 then .next (dmcStall s)
      else if s.mach.hidden.jammed = true then .next (endCycle s)
      else if s.mach.hidden.intDue = true then .next (interruptSequence s)
      else instructionStep s) ∧
    (let t := endCycle s
     let line := t.mach.ppu.vblankFlag && t.mach.ppu.ctrl.getLsbD 7
     t.mach.hidden = { s.mach.hidden with
       nmiPending := s.mach.hidden.nmiPending || (line && !s.mach.hidden.nmiPrev), nmiPrev := line,
       irqLevel := t.mach.apu.fc.irq || t.mach.apu.dmc.irq || t.mach.mapper.irq, cycles := s.mach.hidden.cycles + 1 }) ∧
    poll s = { s with mach := { s.mach with hidden := { s.mach.hidden with
      intDue := s.mach.hidden.nmiPending || (s.mach.hidden.irqLevel && !s.mach.regs.p.i) } } }

/-- O12. The effective address and the bus cycles of every memory addressing mode (40_addressing.md R204, R205, R206,
R207, R208, R209, R210, R215, 20_memory.md R103). -/
def Obligations.AddressingModesComputeTheirAddresses : Prop :=
  ∀ (s : State) (nn : Byte) (addr : Word) (index : Regs → Byte) (always : Bool),
    let i := (index s.mach.regs).toNat
    let zp (n : Nat) : Word := BitVec.ofNat 16 (n % 256)
    let ram (n : Nat) : Nat := (Cells.read s.mach.ram (n % 256)).toNat
    let fixUp (base i : Nat) (u : State) : State :=
      if always = true ∨ 256 ≤ base % 256 + i then dummyRead (BitVec.ofNat 16 (base / 256 * 256 + (base + i) % 256)) u else u
    (addrZp nn s = (zp nn.toNat, s)) ∧
    (addrZpIndexed index nn s = (zp (nn.toNat + i), dummyRead (zp nn.toNat) s)) ∧
    (addrAbs addr s = (addr, s)) ∧
    (addrAbsIndexed always index addr s = (BitVec.ofNat 16 (addr.toNat + i), fixUp addr.toNat i s)) ∧
    (let p := nn.toNat + s.mach.regs.x.toNat
     addrIzx nn s = (BitVec.ofNat 16 (ram p + 256 * ram (p + 1)),
       dummyRead (zp (p + 1)) (dummyRead (zp p) (dummyRead (zp nn.toNat) s)))) ∧
    (let base := ram nn.toNat + 256 * ram (nn.toNat + 1)
     addrIzy always nn s = (BitVec.ofNat 16 (base + s.mach.regs.y.toNat),
       fixUp base s.mach.regs.y.toNat (dummyRead (zp (nn.toNat + 1)) (dummyRead (zp nn.toNat) s))))

/-- O13. LDA, LDX and LDY, in every form, load the byte read and set N and Z (41_load_store_transfer.md R250, R251,
R252, 40_addressing.md R200, R203, R213, R214, R215). -/
def Obligations.LoadsLoadTheByteRead : Prop :=
  ∀ (nn : Byte) (addr : Word),
    ImmediateCompletes (.ldaImm nn) nn Spec.lda ∧
    ReadCompletes (.ldaZp nn) (addrZp nn) Spec.lda ∧
    ReadCompletes (.ldaZpx nn) (addrZpIndexed Regs.x nn) Spec.lda ∧
    ReadCompletes (.ldaAbs addr) (addrAbs addr) Spec.lda ∧
    ReadCompletes (.ldaAbx addr) (addrAbsIndexed false Regs.x addr) Spec.lda ∧
    ReadCompletes (.ldaAby addr) (addrAbsIndexed false Regs.y addr) Spec.lda ∧
    ReadCompletes (.ldaIzx nn) (addrIzx nn) Spec.lda ∧
    ReadCompletes (.ldaIzy nn) (addrIzy false nn) Spec.lda ∧
    ImmediateCompletes (.ldxImm nn) nn Spec.ldx ∧
    ReadCompletes (.ldxZp nn) (addrZp nn) Spec.ldx ∧
    ReadCompletes (.ldxZpy nn) (addrZpIndexed Regs.y nn) Spec.ldx ∧
    ReadCompletes (.ldxAbs addr) (addrAbs addr) Spec.ldx ∧
    ReadCompletes (.ldxAby addr) (addrAbsIndexed false Regs.y addr) Spec.ldx ∧
    ImmediateCompletes (.ldyImm nn) nn Spec.ldy ∧
    ReadCompletes (.ldyZp nn) (addrZp nn) Spec.ldy ∧
    ReadCompletes (.ldyZpx nn) (addrZpIndexed Regs.x nn) Spec.ldy ∧
    ReadCompletes (.ldyAbs addr) (addrAbs addr) Spec.ldy ∧
    ReadCompletes (.ldyAbx addr) (addrAbsIndexed false Regs.x addr) Spec.ldy

/-- O14. STA, STX and STY, in every form, store the register at the mode's address and nothing else
(41_load_store_transfer.md R253, R254, R255, 40_addressing.md R200, R208, R213, R214). -/
def Obligations.StoresStoreTheRegister : Prop :=
  ∀ (nn : Byte) (addr : Word),
    WriteCompletes (.staZp nn) (addrZp nn) Regs.a id ∧
    WriteCompletes (.staZpx nn) (addrZpIndexed Regs.x nn) Regs.a id ∧
    WriteCompletes (.staAbs addr) (addrAbs addr) Regs.a id ∧
    WriteCompletes (.staAbx addr) (addrAbsIndexed true Regs.x addr) Regs.a id ∧
    WriteCompletes (.staAby addr) (addrAbsIndexed true Regs.y addr) Regs.a id ∧
    WriteCompletes (.staIzx nn) (addrIzx nn) Regs.a id ∧
    WriteCompletes (.staIzy nn) (addrIzy true nn) Regs.a id ∧
    WriteCompletes (.stxZp nn) (addrZp nn) Regs.x id ∧
    WriteCompletes (.stxZpy nn) (addrZpIndexed Regs.y nn) Regs.x id ∧
    WriteCompletes (.stxAbs addr) (addrAbs addr) Regs.x id ∧
    WriteCompletes (.styZp nn) (addrZp nn) Regs.y id ∧
    WriteCompletes (.styZpx nn) (addrZpIndexed Regs.x nn) Regs.y id ∧
    WriteCompletes (.styAbs addr) (addrAbs addr) Regs.y id

/-- O15. The transfers and INX, INY, DEX, DEY change their register, and N and Z but for TXS
(41_load_store_transfer.md R256, R257, R258, R259, R260, R261, 42_arithmetic_logic.md R314, R315, R316, R317,
40_addressing.md R202). -/
def Obligations.TransfersAndCountsComplete : Prop :=
  ImpliedCompletes .tax (fun r => Spec.ldx r.a r) ∧
    ImpliedCompletes .tay (fun r => Spec.ldy r.a r) ∧
    ImpliedCompletes .txa (fun r => Spec.lda r.x r) ∧
    ImpliedCompletes .tya (fun r => Spec.lda r.y r) ∧
    ImpliedCompletes .tsx (fun r => Spec.ldx r.s r) ∧
    ImpliedCompletes .txs (fun r => { r with s := r.x }) ∧
    ImpliedCompletes .inx (fun r => Spec.ldx (Spec.byte (r.x.toNat + 1)) r) ∧
    ImpliedCompletes .iny (fun r => Spec.ldy (Spec.byte (r.y.toNat + 1)) r) ∧
    ImpliedCompletes .dex (fun r => Spec.ldx (Spec.byte (r.x.toNat - 1)) r) ∧
    ImpliedCompletes .dey (fun r => Spec.ldy (Spec.byte (r.y.toNat - 1)) r)

/-- O16. AddC: the sum, C, V, N and Z, and what they mean for a subtraction (R301). -/
def Obligations.AddWithCarryIsExact : Prop :=
  ∀ (b : Byte) (r : Regs), let c := Spec.num r.p.c
    let q := r.addC b
    let d := r.addC (~~~b)
    q = { r with a := q.a, p := { r.p with n := q.p.n, v := q.p.v, z := q.p.z, c := q.p.c } } ∧
    (q.a.toNat : Int) = (r.a.toNat + b.toNat + c) % 256 ∧
    (q.p.c = true ↔ 256 ≤ r.a.toNat + b.toNat + c) ∧
    (q.p.v = true ↔ r.a.toInt + b.toInt + c < -128 ∨ 127 < r.a.toInt + b.toInt + c) ∧
    (q.p.n = true ↔ 128 ≤ q.a.toNat) ∧ (q.p.z = true ↔ q.a.toNat = 0) ∧
    (d.p.c = true ↔ b.toNat + (1 - c) ≤ r.a.toNat) ∧
    (d.p.v = true ↔ r.a.toInt - b.toInt - (1 - c) < -128 ∨ 127 < r.a.toInt - b.toInt - (1 - c))

/-- O17. ADC and SBC, in every form and with the copy $EB, add and subtract in binary (42_arithmetic_logic.md R300,
R301, R303, R304, 46_unofficial.md R513, 40_addressing.md R200, R213, R214). -/
def Obligations.AddAndSubtractComplete : Prop :=
  ∀ (nn : Byte) (addr : Word),
    ImmediateCompletes (.adcImm nn) nn Spec.adc ∧
    ReadCompletes (.adcZp nn) (addrZp nn) Spec.adc ∧
    ReadCompletes (.adcZpx nn) (addrZpIndexed Regs.x nn) Spec.adc ∧
    ReadCompletes (.adcAbs addr) (addrAbs addr) Spec.adc ∧
    ReadCompletes (.adcAbx addr) (addrAbsIndexed false Regs.x addr) Spec.adc ∧
    ReadCompletes (.adcAby addr) (addrAbsIndexed false Regs.y addr) Spec.adc ∧
    ReadCompletes (.adcIzx nn) (addrIzx nn) Spec.adc ∧
    ReadCompletes (.adcIzy nn) (addrIzy false nn) Spec.adc ∧
    ImmediateCompletes (.sbcImm nn) nn Spec.sbc ∧
    ImmediateCompletes (.sbcImmEB nn) nn Spec.sbc ∧
    ReadCompletes (.sbcZp nn) (addrZp nn) Spec.sbc ∧
    ReadCompletes (.sbcZpx nn) (addrZpIndexed Regs.x nn) Spec.sbc ∧
    ReadCompletes (.sbcAbs addr) (addrAbs addr) Spec.sbc ∧
    ReadCompletes (.sbcAbx addr) (addrAbsIndexed false Regs.x addr) Spec.sbc ∧
    ReadCompletes (.sbcAby addr) (addrAbsIndexed false Regs.y addr) Spec.sbc ∧
    ReadCompletes (.sbcIzx nn) (addrIzx nn) Spec.sbc ∧
    ReadCompletes (.sbcIzy nn) (addrIzy false nn) Spec.sbc

/-- O18. AND, ORA, EOR and BIT, in every form (42_arithmetic_logic.md R305, R306, R307, R308, 40_addressing.md R200,
R213, R214). -/
def Obligations.LogicCompletes : Prop :=
  ∀ (nn : Byte) (addr : Word),
    ImmediateCompletes (.andImm nn) nn (fun v r => Spec.lda (r.a &&& v) r) ∧
    ReadCompletes (.andZp nn) (addrZp nn) (fun v r => Spec.lda (r.a &&& v) r) ∧
    ReadCompletes (.andZpx nn) (addrZpIndexed Regs.x nn) (fun v r => Spec.lda (r.a &&& v) r) ∧
    ReadCompletes (.andAbs addr) (addrAbs addr) (fun v r => Spec.lda (r.a &&& v) r) ∧
    ReadCompletes (.andAbx addr) (addrAbsIndexed false Regs.x addr) (fun v r => Spec.lda (r.a &&& v) r) ∧
    ReadCompletes (.andAby addr) (addrAbsIndexed false Regs.y addr) (fun v r => Spec.lda (r.a &&& v) r) ∧
    ReadCompletes (.andIzx nn) (addrIzx nn) (fun v r => Spec.lda (r.a &&& v) r) ∧
    ReadCompletes (.andIzy nn) (addrIzy false nn) (fun v r => Spec.lda (r.a &&& v) r) ∧
    ImmediateCompletes (.oraImm nn) nn (fun v r => Spec.lda (r.a ||| v) r) ∧
    ReadCompletes (.oraZp nn) (addrZp nn) (fun v r => Spec.lda (r.a ||| v) r) ∧
    ReadCompletes (.oraZpx nn) (addrZpIndexed Regs.x nn) (fun v r => Spec.lda (r.a ||| v) r) ∧
    ReadCompletes (.oraAbs addr) (addrAbs addr) (fun v r => Spec.lda (r.a ||| v) r) ∧
    ReadCompletes (.oraAbx addr) (addrAbsIndexed false Regs.x addr) (fun v r => Spec.lda (r.a ||| v) r) ∧
    ReadCompletes (.oraAby addr) (addrAbsIndexed false Regs.y addr) (fun v r => Spec.lda (r.a ||| v) r) ∧
    ReadCompletes (.oraIzx nn) (addrIzx nn) (fun v r => Spec.lda (r.a ||| v) r) ∧
    ReadCompletes (.oraIzy nn) (addrIzy false nn) (fun v r => Spec.lda (r.a ||| v) r) ∧
    ImmediateCompletes (.eorImm nn) nn (fun v r => Spec.lda (r.a ^^^ v) r) ∧
    ReadCompletes (.eorZp nn) (addrZp nn) (fun v r => Spec.lda (r.a ^^^ v) r) ∧
    ReadCompletes (.eorZpx nn) (addrZpIndexed Regs.x nn) (fun v r => Spec.lda (r.a ^^^ v) r) ∧
    ReadCompletes (.eorAbs addr) (addrAbs addr) (fun v r => Spec.lda (r.a ^^^ v) r) ∧
    ReadCompletes (.eorAbx addr) (addrAbsIndexed false Regs.x addr) (fun v r => Spec.lda (r.a ^^^ v) r) ∧
    ReadCompletes (.eorAby addr) (addrAbsIndexed false Regs.y addr) (fun v r => Spec.lda (r.a ^^^ v) r) ∧
    ReadCompletes (.eorIzx nn) (addrIzx nn) (fun v r => Spec.lda (r.a ^^^ v) r) ∧
    ReadCompletes (.eorIzy nn) (addrIzy false nn) (fun v r => Spec.lda (r.a ^^^ v) r) ∧
    ReadCompletes (.bitZp nn) (addrZp nn) Spec.bitTest ∧
    ReadCompletes (.bitAbs addr) (addrAbs addr) Spec.bitTest

/-- O19. CMP, CPX and CPY, in every form, set C, N and Z of the difference and change nothing else
(42_arithmetic_logic.md R302, R309, R310, R311, 40_addressing.md R200, R213, R214). -/
def Obligations.ComparesComplete : Prop :=
  ∀ (nn : Byte) (addr : Word),
    ImmediateCompletes (.cmpImm nn) nn Spec.cmp ∧
    ReadCompletes (.cmpZp nn) (addrZp nn) Spec.cmp ∧
    ReadCompletes (.cmpZpx nn) (addrZpIndexed Regs.x nn) Spec.cmp ∧
    ReadCompletes (.cmpAbs addr) (addrAbs addr) Spec.cmp ∧
    ReadCompletes (.cmpAbx addr) (addrAbsIndexed false Regs.x addr) Spec.cmp ∧
    ReadCompletes (.cmpAby addr) (addrAbsIndexed false Regs.y addr) Spec.cmp ∧
    ReadCompletes (.cmpIzx nn) (addrIzx nn) Spec.cmp ∧
    ReadCompletes (.cmpIzy nn) (addrIzy false nn) Spec.cmp ∧
    ImmediateCompletes (.cpxImm nn) nn Spec.cpx ∧
    ReadCompletes (.cpxZp nn) (addrZp nn) Spec.cpx ∧
    ReadCompletes (.cpxAbs addr) (addrAbs addr) Spec.cpx ∧
    ImmediateCompletes (.cpyImm nn) nn Spec.cpy ∧
    ReadCompletes (.cpyZp nn) (addrZp nn) Spec.cpy ∧
    ReadCompletes (.cpyAbs addr) (addrAbs addr) Spec.cpy

/-- O20. INC and DEC, in every form, store the byte read plus or minus one, after its dummy write
(42_arithmetic_logic.md R312, R313, 40_addressing.md R200, R208, R213, R214, 20_memory.md R119). At $4014, written
twice, the page of the OAM DMA is that of the second write (20_memory.md R115; 70_reset_and_hazards.md R1021 says the
first: the model's choice, log entry 26). -/
def Obligations.IncrementAndDecrementComplete : Prop :=
  ∀ (nn : Byte) (addr : Word),
    ModifyCompletes (.incZp nn) (addrZp nn)
      (fun old _ => Spec.byte (old.toNat + 1))
      (fun old r => { r with p := Spec.nz (Spec.byte (old.toNat + 1)) r.p }) ∧
    ModifyCompletes (.incZpx nn) (addrZpIndexed Regs.x nn)
      (fun old _ => Spec.byte (old.toNat + 1))
      (fun old r => { r with p := Spec.nz (Spec.byte (old.toNat + 1)) r.p }) ∧
    ModifyCompletes (.incAbs addr) (addrAbs addr)
      (fun old _ => Spec.byte (old.toNat + 1))
      (fun old r => { r with p := Spec.nz (Spec.byte (old.toNat + 1)) r.p }) ∧
    ModifyCompletes (.incAbx addr) (addrAbsIndexed true Regs.x addr)
      (fun old _ => Spec.byte (old.toNat + 1))
      (fun old r => { r with p := Spec.nz (Spec.byte (old.toNat + 1)) r.p }) ∧
    ModifyCompletes (.decZp nn) (addrZp nn)
      (fun old _ => Spec.byte (old.toNat - 1))
      (fun old r => { r with p := Spec.nz (Spec.byte (old.toNat - 1)) r.p }) ∧
    ModifyCompletes (.decZpx nn) (addrZpIndexed Regs.x nn)
      (fun old _ => Spec.byte (old.toNat - 1))
      (fun old r => { r with p := Spec.nz (Spec.byte (old.toNat - 1)) r.p }) ∧
    ModifyCompletes (.decAbs addr) (addrAbs addr)
      (fun old _ => Spec.byte (old.toNat - 1))
      (fun old r => { r with p := Spec.nz (Spec.byte (old.toNat - 1)) r.p }) ∧
    ModifyCompletes (.decAbx addr) (addrAbsIndexed true Regs.x addr)
      (fun old _ => Spec.byte (old.toNat - 1))
      (fun old r => { r with p := Spec.nz (Spec.byte (old.toNat - 1)) r.p })

/-- O21. ASL, LSR, ROL and ROR on memory, in every form (43_shift_rotate.md R350, R351, R352, R353, 40_addressing.md
R200, R208, R213, R214). At $4014, written twice, the page of the OAM DMA is that of the second write (20_memory.md
R115; 70_reset_and_hazards.md R1021 says the first: the model's choice, log entry 26). -/
def Obligations.MemoryShiftsComplete : Prop :=
  ∀ (nn : Byte) (addr : Word),
    ModifyCompletes (.aslZp nn) (addrZp nn)
      (fun old r => (Spec.asl old r.p.c).1)
      (fun old r => Spec.shifted (Spec.asl old r.p.c) r) ∧
    ModifyCompletes (.aslZpx nn) (addrZpIndexed Regs.x nn)
      (fun old r => (Spec.asl old r.p.c).1)
      (fun old r => Spec.shifted (Spec.asl old r.p.c) r) ∧
    ModifyCompletes (.aslAbs addr) (addrAbs addr)
      (fun old r => (Spec.asl old r.p.c).1)
      (fun old r => Spec.shifted (Spec.asl old r.p.c) r) ∧
    ModifyCompletes (.aslAbx addr) (addrAbsIndexed true Regs.x addr)
      (fun old r => (Spec.asl old r.p.c).1)
      (fun old r => Spec.shifted (Spec.asl old r.p.c) r) ∧
    ModifyCompletes (.lsrZp nn) (addrZp nn)
      (fun old r => (Spec.lsr old r.p.c).1)
      (fun old r => Spec.shifted (Spec.lsr old r.p.c) r) ∧
    ModifyCompletes (.lsrZpx nn) (addrZpIndexed Regs.x nn)
      (fun old r => (Spec.lsr old r.p.c).1)
      (fun old r => Spec.shifted (Spec.lsr old r.p.c) r) ∧
    ModifyCompletes (.lsrAbs addr) (addrAbs addr)
      (fun old r => (Spec.lsr old r.p.c).1)
      (fun old r => Spec.shifted (Spec.lsr old r.p.c) r) ∧
    ModifyCompletes (.lsrAbx addr) (addrAbsIndexed true Regs.x addr)
      (fun old r => (Spec.lsr old r.p.c).1)
      (fun old r => Spec.shifted (Spec.lsr old r.p.c) r) ∧
    ModifyCompletes (.rolZp nn) (addrZp nn)
      (fun old r => (Spec.rol old r.p.c).1)
      (fun old r => Spec.shifted (Spec.rol old r.p.c) r) ∧
    ModifyCompletes (.rolZpx nn) (addrZpIndexed Regs.x nn)
      (fun old r => (Spec.rol old r.p.c).1)
      (fun old r => Spec.shifted (Spec.rol old r.p.c) r) ∧
    ModifyCompletes (.rolAbs addr) (addrAbs addr)
      (fun old r => (Spec.rol old r.p.c).1)
      (fun old r => Spec.shifted (Spec.rol old r.p.c) r) ∧
    ModifyCompletes (.rolAbx addr) (addrAbsIndexed true Regs.x addr)
      (fun old r => (Spec.rol old r.p.c).1)
      (fun old r => Spec.shifted (Spec.rol old r.p.c) r) ∧
    ModifyCompletes (.rorZp nn) (addrZp nn)
      (fun old r => (Spec.ror old r.p.c).1)
      (fun old r => Spec.shifted (Spec.ror old r.p.c) r) ∧
    ModifyCompletes (.rorZpx nn) (addrZpIndexed Regs.x nn)
      (fun old r => (Spec.ror old r.p.c).1)
      (fun old r => Spec.shifted (Spec.ror old r.p.c) r) ∧
    ModifyCompletes (.rorAbs addr) (addrAbs addr)
      (fun old r => (Spec.ror old r.p.c).1)
      (fun old r => Spec.shifted (Spec.ror old r.p.c) r) ∧
    ModifyCompletes (.rorAbx addr) (addrAbsIndexed true Regs.x addr)
      (fun old r => (Spec.ror old r.p.c).1)
      (fun old r => Spec.shifted (Spec.ror old r.p.c) r)

/-- O22. ASL, LSR, ROL and ROR of the accumulator (43_shift_rotate.md R350, R351, R352, R353, 40_addressing.md R202).
-/
def Obligations.AccumulatorShiftsComplete : Prop :=
  ImpliedCompletes .aslA (fun r => { Spec.shifted (Spec.asl r.a r.p.c) r with a := (Spec.asl r.a r.p.c).1 }) ∧
    ImpliedCompletes .lsrA (fun r => { Spec.shifted (Spec.lsr r.a r.p.c) r with a := (Spec.lsr r.a r.p.c).1 }) ∧
    ImpliedCompletes .rolA (fun r => { Spec.shifted (Spec.rol r.a r.p.c) r with a := (Spec.rol r.a r.p.c).1 }) ∧
    ImpliedCompletes .rorA (fun r => { Spec.shifted (Spec.ror r.a r.p.c) r with a := (Spec.ror r.a r.p.c).1 })

/-- O23. The eight conditional branches, not taken, taken in the page and taken across a page (44_control_flow.md
R400, R401, R402, R403, R404, R405, R406, R407, R408, 60_exceptions.md R613, 40_addressing.md R211). -/
def Obligations.BranchesComplete : Prop :=
  ∀ oo : Byte,
    BranchCompletes (.bpl oo) (fun f => !f.n) oo ∧ BranchCompletes (.bmi oo) (fun f => f.n) oo ∧
    BranchCompletes (.bvc oo) (fun f => !f.v) oo ∧ BranchCompletes (.bvs oo) (fun f => f.v) oo ∧
    BranchCompletes (.bcc oo) (fun f => !f.c) oo ∧ BranchCompletes (.bcs oo) (fun f => f.c) oo ∧
    BranchCompletes (.bne oo) (fun f => !f.z) oo ∧ BranchCompletes (.beq oo) (fun f => f.z) oo

/-- O24. JMP absolute and JMP indirect with its page wrap (44_control_flow.md R409, 40_addressing.md R212, R213). -/
def Obligations.JumpsComplete : Prop :=
  ∀ (addr : Word) (s : State),
    exec (.jmpAbs addr) s = .next { s with mach := { s.mach with regs := { s.mach.regs with pc := addr } } } ∧
    (let s4 := dummyRead addr s
     let second : Word := BitVec.ofNat 16 (addr.toNat / 256 * 256 + (addr.toNat + 1) % 256)
     ∃ t, exec (.jmpInd addr) s = .next t ∧
       t.mach.regs = { s.mach.regs with pc := BitVec.ofNat 16 ((peek addr s).toNat + 256 * (peek second s4).toNat) } ∧
       t.mach.hidden.intDue = pollResult s4 ∧ t.mach.hidden.jammed = s.mach.hidden.jammed ∧
       t.mach.hidden.cycles = s.mach.hidden.cycles + 2 ∧ Kept s t ∧ MemoryKept s t)

/-- O25. JSR pushes the address of its last byte and jumps; RTS pulls and adds one (44_control_flow.md R411, R412,
R414, 10_state.md R54). -/
def Obligations.SubroutineCallAndReturnComplete : Prop :=
  (∀ (addr : Word) (s : State), MemoriesOk s.mach →
    let pc := s.mach.regs.pc
    let s5 := pushPc (dummyRead (BitVec.ofNat 16 (256 + s.mach.regs.s.toNat)) s)
    ∃ t, exec (.jsrAbs addr) s = .next t ∧
      t.mach.regs = { s.mach.regs with s := s.mach.regs.s - 2,
                                       pc := BitVec.ofNat 16 (addr.toNat % 256 + 256 * (peek pc (poll s5)).toNat) } ∧
      (∀ b, memByte pc s5 = some b → peek pc (poll s5) = b) ∧
      Pushed [BitVec.ofNat 8 (pc.toNat / 256), BitVec.ofNat 8 pc.toNat] s t ∧ t.mach.hidden.intDue = pollResult s5 ∧
      t.mach.hidden.jammed = s.mach.hidden.jammed ∧ t.mach.hidden.cycles = s.mach.hidden.cycles + 4 ∧ Kept s t) ∧
  (∀ s : State,
    let s3 := dummyRead (BitVec.ofNat 16 (256 + s.mach.regs.s.toNat)) (dummyRead s.mach.regs.pc s)
    ∃ t, exec .rts s = .next t ∧
      t.mach.regs = { s.mach.regs with
        s := s.mach.regs.s + 2, pc := BitVec.ofNat 16 ((pulledByte s 1).toNat + 256 * (pulledByte s 2).toNat + 1) } ∧
      t.mach.hidden.intDue = pollResult (pull (pull s3).2).2 ∧ t.mach.hidden.jammed = s.mach.hidden.jammed ∧
      t.mach.hidden.cycles = s.mach.hidden.cycles + 5 ∧ Kept s t ∧ MemoryKept s t)

/-- O26. BRK pushes PC and P with B set, sets I and goes through the vector (44_control_flow.md R410, 60_exceptions.md
R605, R606, R607, R611, 10_state.md R57, 20_memory.md R114). Where the cartridge drives nothing at the vector the word
is open bus (log entry 4 for no cartridge). The order of the clearing in c6 is the model's reading (log entry 23). -/
def Obligations.BreakEntersTheHandler : Prop :=
  ∀ (pad : Byte) (s : State), MemoriesOk s.mach →
    let r := s.mach.regs
    let s4 := pushPc s
    let vec : Word := if s4.mach.hidden.nmiPending then 0xFFFA else 0xFFFE
    let s6 := dummyRead vec (push (Spec.image true r.p) s4)
    ∃ t, exec (.brk pad) s = .next t ∧
      t.mach.regs = { r with s := r.s - 3, p := { r.p with i := true }, pc := vectorWord vec (Spec.image true r.p) s } ∧
      Pushed [BitVec.ofNat 8 (r.pc.toNat / 256), BitVec.ofNat 8 r.pc.toNat, Spec.image true r.p] s t ∧
      t.mach.hidden.nmiPending =
        ((s6.mach.hidden.nmiPending && vec != 0xFFFA) || (t.mach.ppu.nmiOut && !s6.mach.hidden.nmiPrev)) ∧
      t.mach.hidden.intDue = false ∧ t.mach.hidden.jammed = s.mach.hidden.jammed ∧
      t.mach.hidden.cycles = s.mach.hidden.cycles + 5 ∧ Kept s t

/-- O27. RTI restores the six flags and PC from the stack, and polls with the restored I (44_control_flow.md R413,
60_exceptions.md R614, R615, 10_state.md R58). -/
def Obligations.ReturnFromInterruptRestores : Prop :=
  ∀ s : State,
    let s3 := dummyRead (BitVec.ofNat 16 (256 + s.mach.regs.s.toNat)) (dummyRead s.mach.regs.pc s)
    let s4 := updateFlags (fun _ => Spec.flags (pulledByte s 1)) (pull s3).2
    let s5 := (pull s4).2
    ∃ t, exec .rti s = .next t ∧
      t.mach.regs = { s.mach.regs with
        p := Spec.flags (pulledByte s 1), s := s.mach.regs.s + 3
        pc := BitVec.ofNat 16 ((pulledByte s 2).toNat + 256 * (pulledByte s 3).toNat) } ∧
      t.mach.hidden.intDue =
        (s5.mach.hidden.nmiPending || (s5.mach.hidden.irqLevel && !(Spec.flags (pulledByte s 1)).i)) ∧
      t.mach.hidden.jammed = s.mach.hidden.jammed ∧ t.mach.hidden.cycles = s.mach.hidden.cycles + 5 ∧ Kept s t ∧
      MemoryKept s t

/-- O28. PHA, PHP, PLA and PLP (45_stack_flags_misc.md R450, R451, R452, R453, 10_state.md R54, R57, R58,
60_exceptions.md R614). -/
def Obligations.PushesAndPullsComplete : Prop :=
  (∀ s : State, MemoriesOk s.mach → let r := s.mach.regs
    let s2 := dummyRead r.pc s
    (∃ t, exec .pha s = .next t ∧ t.mach.regs = { r with s := r.s - 1 } ∧ Pushed [r.a] s t ∧
      t.mach.hidden.intDue = pollResult s2 ∧ t.mach.hidden.jammed = s.mach.hidden.jammed ∧
      t.mach.hidden.cycles = s.mach.hidden.cycles + 2 ∧ Kept s t) ∧
    (∃ t, exec .php s = .next t ∧ t.mach.regs = { r with s := r.s - 1 } ∧ Pushed [Spec.image true r.p] s t ∧
      t.mach.hidden.intDue = pollResult s2 ∧ t.mach.hidden.jammed = s.mach.hidden.jammed ∧
      t.mach.hidden.cycles = s.mach.hidden.cycles + 2 ∧ Kept s t)) ∧
  (∀ s : State, let r := s.mach.regs
    let s3 := dummyRead (BitVec.ofNat 16 (256 + r.s.toNat)) (dummyRead r.pc s)
    (∃ t, exec .pla s = .next t ∧ t.mach.regs = Spec.lda (pulledByte s 1) { r with s := r.s + 1 } ∧
      t.mach.hidden.intDue = pollResult s3 ∧ t.mach.hidden.jammed = s.mach.hidden.jammed ∧
      t.mach.hidden.cycles = s.mach.hidden.cycles + 3 ∧ Kept s t ∧ MemoryKept s t) ∧
    (∃ t, exec .plp s = .next t ∧ t.mach.regs = { r with s := r.s + 1, p := Spec.flags (pulledByte s 1) } ∧
      t.mach.hidden.intDue = pollResult s3 ∧ t.mach.hidden.jammed = s.mach.hidden.jammed ∧
      t.mach.hidden.cycles = s.mach.hidden.cycles + 3 ∧ Kept s t ∧ MemoryKept s t))

/-- O29. CLC, CLD, CLI, CLV, SEC, SED and SEI change their one flag (45_stack_flags_misc.md R454, R455, R456, R457,
R458, R459, R460, 60_exceptions.md R614, 40_addressing.md R202). -/
def Obligations.FlagInstructionsComplete : Prop :=
  ImpliedCompletes .clc (fun r => { r with p := { r.p with c := false } }) ∧
    ImpliedCompletes .cld (fun r => { r with p := { r.p with d := false } }) ∧
    ImpliedCompletes .cli (fun r => { r with p := { r.p with i := false } }) ∧
    ImpliedCompletes .clv (fun r => { r with p := { r.p with v := false } }) ∧
    ImpliedCompletes .sec (fun r => { r with p := { r.p with c := true } }) ∧
    ImpliedCompletes .sed (fun r => { r with p := { r.p with d := true } }) ∧
    ImpliedCompletes .sei (fun r => { r with p := { r.p with i := true } })

/-- O30. The 28 NOPs change no register, and make the real reads of their mode (45_stack_flags_misc.md R461,
46_unofficial.md R514, 40_addressing.md R202, R203, R204, R205, R206, R207). -/
def Obligations.NopsComplete : Prop :=
  ∀ (nn : Byte) (addr : Word),
    ImpliedNopCompletes .nopImp1A ∧
    ImpliedNopCompletes .nopImp3A ∧
    ImpliedNopCompletes .nopImp5A ∧
    ImpliedNopCompletes .nopImp7A ∧
    ImpliedNopCompletes .nopImpDA ∧
    ImpliedNopCompletes .nop ∧
    ImpliedNopCompletes .nopImpFA ∧
    ReadNopCompletes (.nopZp04 nn) (addrZp nn) ∧
    ReadNopCompletes (.nopAbs0C addr) (addrAbs addr) ∧
    ReadNopCompletes (.nopZpx14 nn) (addrZpIndexed Regs.x nn) ∧
    ReadNopCompletes (.nopAbx1C addr) (addrAbsIndexed false Regs.x addr) ∧
    ReadNopCompletes (.nopZpx34 nn) (addrZpIndexed Regs.x nn) ∧
    ReadNopCompletes (.nopAbx3C addr) (addrAbsIndexed false Regs.x addr) ∧
    ReadNopCompletes (.nopZp44 nn) (addrZp nn) ∧
    ReadNopCompletes (.nopZpx54 nn) (addrZpIndexed Regs.x nn) ∧
    ReadNopCompletes (.nopAbx5C addr) (addrAbsIndexed false Regs.x addr) ∧
    ReadNopCompletes (.nopZp64 nn) (addrZp nn) ∧
    ReadNopCompletes (.nopZpx74 nn) (addrZpIndexed Regs.x nn) ∧
    ReadNopCompletes (.nopAbx7C addr) (addrAbsIndexed false Regs.x addr) ∧
    ImmediateCompletes (.nopImm80 nn) nn (fun _ r => r) ∧
    ImmediateCompletes (.nopImm82 nn) nn (fun _ r => r) ∧
    ImmediateCompletes (.nopImm89 nn) nn (fun _ r => r) ∧
    ImmediateCompletes (.nopImmC2 nn) nn (fun _ r => r) ∧
    ReadNopCompletes (.nopZpxD4 nn) (addrZpIndexed Regs.x nn) ∧
    ReadNopCompletes (.nopAbxDC addr) (addrAbsIndexed false Regs.x addr) ∧
    ImmediateCompletes (.nopImmE2 nn) nn (fun _ r => r) ∧
    ReadNopCompletes (.nopZpxF4 nn) (addrZpIndexed Regs.x nn) ∧
    ReadNopCompletes (.nopAbxFC addr) (addrAbsIndexed false Regs.x addr)

/-- O31. SLO, RLA, SRE and RRA shift memory and combine the result with A, in every form (46_unofficial.md R501, R502,
R503, R504, 40_addressing.md R200, R208, R210, R213, R214). At $4014, written twice, the page of the OAM DMA is that
of the second write (20_memory.md R115; 70_reset_and_hazards.md R1021 says the first: the model's choice, log entry
26). -/
def Obligations.ShiftAndCombineComplete : Prop :=
  ∀ (nn : Byte) (addr : Word),
    ModifyCompletes (.sloZp nn) (addrZp nn)
      (fun old r => (Spec.asl old r.p.c).1)
      Spec.slo ∧
    ModifyCompletes (.sloZpx nn) (addrZpIndexed Regs.x nn)
      (fun old r => (Spec.asl old r.p.c).1)
      Spec.slo ∧
    ModifyCompletes (.sloAbs addr) (addrAbs addr)
      (fun old r => (Spec.asl old r.p.c).1)
      Spec.slo ∧
    ModifyCompletes (.sloAbx addr) (addrAbsIndexed true Regs.x addr)
      (fun old r => (Spec.asl old r.p.c).1)
      Spec.slo ∧
    ModifyCompletes (.sloAby addr) (addrAbsIndexed true Regs.y addr)
      (fun old r => (Spec.asl old r.p.c).1)
      Spec.slo ∧
    ModifyCompletes (.sloIzx nn) (addrIzx nn)
      (fun old r => (Spec.asl old r.p.c).1)
      Spec.slo ∧
    ModifyCompletes (.sloIzy nn) (addrIzy true nn)
      (fun old r => (Spec.asl old r.p.c).1)
      Spec.slo ∧
    ModifyCompletes (.rlaZp nn) (addrZp nn)
      (fun old r => (Spec.rol old r.p.c).1)
      Spec.rla ∧
    ModifyCompletes (.rlaZpx nn) (addrZpIndexed Regs.x nn)
      (fun old r => (Spec.rol old r.p.c).1)
      Spec.rla ∧
    ModifyCompletes (.rlaAbs addr) (addrAbs addr)
      (fun old r => (Spec.rol old r.p.c).1)
      Spec.rla ∧
    ModifyCompletes (.rlaAbx addr) (addrAbsIndexed true Regs.x addr)
      (fun old r => (Spec.rol old r.p.c).1)
      Spec.rla ∧
    ModifyCompletes (.rlaAby addr) (addrAbsIndexed true Regs.y addr)
      (fun old r => (Spec.rol old r.p.c).1)
      Spec.rla ∧
    ModifyCompletes (.rlaIzx nn) (addrIzx nn)
      (fun old r => (Spec.rol old r.p.c).1)
      Spec.rla ∧
    ModifyCompletes (.rlaIzy nn) (addrIzy true nn)
      (fun old r => (Spec.rol old r.p.c).1)
      Spec.rla ∧
    ModifyCompletes (.sreZp nn) (addrZp nn)
      (fun old r => (Spec.lsr old r.p.c).1)
      Spec.sre ∧
    ModifyCompletes (.sreZpx nn) (addrZpIndexed Regs.x nn)
      (fun old r => (Spec.lsr old r.p.c).1)
      Spec.sre ∧
    ModifyCompletes (.sreAbs addr) (addrAbs addr)
      (fun old r => (Spec.lsr old r.p.c).1)
      Spec.sre ∧
    ModifyCompletes (.sreAbx addr) (addrAbsIndexed true Regs.x addr)
      (fun old r => (Spec.lsr old r.p.c).1)
      Spec.sre ∧
    ModifyCompletes (.sreAby addr) (addrAbsIndexed true Regs.y addr)
      (fun old r => (Spec.lsr old r.p.c).1)
      Spec.sre ∧
    ModifyCompletes (.sreIzx nn) (addrIzx nn)
      (fun old r => (Spec.lsr old r.p.c).1)
      Spec.sre ∧
    ModifyCompletes (.sreIzy nn) (addrIzy true nn)
      (fun old r => (Spec.lsr old r.p.c).1)
      Spec.sre ∧
    ModifyCompletes (.rraZp nn) (addrZp nn)
      (fun old r => (Spec.ror old r.p.c).1)
      Spec.rra ∧
    ModifyCompletes (.rraZpx nn) (addrZpIndexed Regs.x nn)
      (fun old r => (Spec.ror old r.p.c).1)
      Spec.rra ∧
    ModifyCompletes (.rraAbs addr) (addrAbs addr)
      (fun old r => (Spec.ror old r.p.c).1)
      Spec.rra ∧
    ModifyCompletes (.rraAbx addr) (addrAbsIndexed true Regs.x addr)
      (fun old r => (Spec.ror old r.p.c).1)
      Spec.rra ∧
    ModifyCompletes (.rraAby addr) (addrAbsIndexed true Regs.y addr)
      (fun old r => (Spec.ror old r.p.c).1)
      Spec.rra ∧
    ModifyCompletes (.rraIzx nn) (addrIzx nn)
      (fun old r => (Spec.ror old r.p.c).1)
      Spec.rra ∧
    ModifyCompletes (.rraIzy nn) (addrIzy true nn)
      (fun old r => (Spec.ror old r.p.c).1)
      Spec.rra

/-- O32. DCP and ISC, in every form (46_unofficial.md R507, R508, 42_arithmetic_logic.md R301, R302, 40_addressing.md
R200, R208, R210, R213, R214). At $4014, written twice, the page of the OAM DMA is that of the second write
(20_memory.md R115; 70_reset_and_hazards.md R1021 says the first: the model's choice, log entry 26). -/
def Obligations.DecrementCompareIncrementSubtractComplete : Prop :=
  ∀ (nn : Byte) (addr : Word),
    ModifyCompletes (.dcpZp nn) (addrZp nn)
      (fun old _ => Spec.byte (old.toNat - 1))
      (fun old r => Spec.cmp (Spec.byte (old.toNat - 1)) r) ∧
    ModifyCompletes (.dcpZpx nn) (addrZpIndexed Regs.x nn)
      (fun old _ => Spec.byte (old.toNat - 1))
      (fun old r => Spec.cmp (Spec.byte (old.toNat - 1)) r) ∧
    ModifyCompletes (.dcpAbs addr) (addrAbs addr)
      (fun old _ => Spec.byte (old.toNat - 1))
      (fun old r => Spec.cmp (Spec.byte (old.toNat - 1)) r) ∧
    ModifyCompletes (.dcpAbx addr) (addrAbsIndexed true Regs.x addr)
      (fun old _ => Spec.byte (old.toNat - 1))
      (fun old r => Spec.cmp (Spec.byte (old.toNat - 1)) r) ∧
    ModifyCompletes (.dcpAby addr) (addrAbsIndexed true Regs.y addr)
      (fun old _ => Spec.byte (old.toNat - 1))
      (fun old r => Spec.cmp (Spec.byte (old.toNat - 1)) r) ∧
    ModifyCompletes (.dcpIzx nn) (addrIzx nn)
      (fun old _ => Spec.byte (old.toNat - 1))
      (fun old r => Spec.cmp (Spec.byte (old.toNat - 1)) r) ∧
    ModifyCompletes (.dcpIzy nn) (addrIzy true nn)
      (fun old _ => Spec.byte (old.toNat - 1))
      (fun old r => Spec.cmp (Spec.byte (old.toNat - 1)) r) ∧
    ModifyCompletes (.iscZp nn) (addrZp nn)
      (fun old _ => Spec.byte (old.toNat + 1))
      (fun old r => Spec.sbc (Spec.byte (old.toNat + 1)) r) ∧
    ModifyCompletes (.iscZpx nn) (addrZpIndexed Regs.x nn)
      (fun old _ => Spec.byte (old.toNat + 1))
      (fun old r => Spec.sbc (Spec.byte (old.toNat + 1)) r) ∧
    ModifyCompletes (.iscAbs addr) (addrAbs addr)
      (fun old _ => Spec.byte (old.toNat + 1))
      (fun old r => Spec.sbc (Spec.byte (old.toNat + 1)) r) ∧
    ModifyCompletes (.iscAbx addr) (addrAbsIndexed true Regs.x addr)
      (fun old _ => Spec.byte (old.toNat + 1))
      (fun old r => Spec.sbc (Spec.byte (old.toNat + 1)) r) ∧
    ModifyCompletes (.iscAby addr) (addrAbsIndexed true Regs.y addr)
      (fun old _ => Spec.byte (old.toNat + 1))
      (fun old r => Spec.sbc (Spec.byte (old.toNat + 1)) r) ∧
    ModifyCompletes (.iscIzx nn) (addrIzx nn)
      (fun old _ => Spec.byte (old.toNat + 1))
      (fun old r => Spec.sbc (Spec.byte (old.toNat + 1)) r) ∧
    ModifyCompletes (.iscIzy nn) (addrIzy true nn)
      (fun old _ => Spec.byte (old.toNat + 1))
      (fun old r => Spec.sbc (Spec.byte (old.toNat + 1)) r)

/-- O33. SAX, LAX and LAS, in every form (46_unofficial.md R505, R506, R521, 40_addressing.md R200, R207, R210, R213,
R214). -/
def Obligations.CombinedStoresAndLoadsComplete : Prop :=
  ∀ (nn : Byte) (addr : Word),
    WriteCompletes (.saxZp nn) (addrZp nn) (fun r => r.a &&& r.x) id ∧
    WriteCompletes (.saxZpy nn) (addrZpIndexed Regs.y nn) (fun r => r.a &&& r.x) id ∧
    WriteCompletes (.saxAbs addr) (addrAbs addr) (fun r => r.a &&& r.x) id ∧
    WriteCompletes (.saxIzx nn) (addrIzx nn) (fun r => r.a &&& r.x) id ∧
    ReadCompletes (.laxZp nn) (addrZp nn) Spec.lax ∧
    ReadCompletes (.laxZpy nn) (addrZpIndexed Regs.y nn) Spec.lax ∧
    ReadCompletes (.laxAbs addr) (addrAbs addr) Spec.lax ∧
    ReadCompletes (.laxAby addr) (addrAbsIndexed false Regs.y addr) Spec.lax ∧
    ReadCompletes (.laxIzx nn) (addrIzx nn) Spec.lax ∧
    ReadCompletes (.laxIzy nn) (addrIzy false nn) Spec.lax ∧
    ReadCompletes (.lasAby addr) (addrAbsIndexed false Regs.y addr) Spec.las

/-- O34. ANC, ALR, ARR and SBX (46_unofficial.md R509, R510, R511, R512, 40_addressing.md R203). -/
def Obligations.CombinedImmediatesComplete : Prop :=
  ∀ nn : Byte,
    ImmediateCompletes (.ancImm0B nn) nn Spec.anc ∧
    ImmediateCompletes (.ancImm2B nn) nn Spec.anc ∧
    ImmediateCompletes (.alrImm nn) nn Spec.alr ∧
    ImmediateCompletes (.arrImm nn) nn Spec.arr ∧
    ImmediateCompletes (.sbxImm nn) nn Spec.sbx

/-- O35. ANE and LXA, whatever ANE_LXA_MAGIC is (46_unofficial.md R515, R516, 00_scope.md R9, 40_addressing.md R203).
The constant is an open parameter (log entry 1): the statement holds for every value of it. -/
def Obligations.UnstableImmediatesComplete : Prop :=
  ∀ nn : Byte,
    ImmediateCompletes (.aneImm nn) nn (fun v r => Spec.lda ((r.a ||| Config.aneLxaMagic) &&& r.x &&& v) r) ∧
    ImmediateCompletes (.lxaImm nn) nn (fun v r => Spec.lax ((r.a ||| Config.aneLxaMagic) &&& v) r)

/-- O36. SHA, SHX, SHY and TAS store their register and the base's high byte plus one (46_unofficial.md R517, R518,
R519, R520, 40_addressing.md R208, R210, R213). -/
def Obligations.HighByteStoresComplete : Prop :=
  ∀ (nn : Byte) (addr : Word),
    ShCompletes (.shaAby addr) (addrAbsIndexed true Regs.y addr) (fun r => r.a &&& r.x) (fun _ => addr) Regs.y id ∧
    ShCompletes (.shaIzy nn) (addrIzy true nn) (fun r => r.a &&& r.x)
      (fun s => BitVec.ofNat 16 ((Cells.read s.mach.ram nn.toNat).toNat +
        256 * (Cells.read s.mach.ram ((nn.toNat + 1) % 256)).toNat)) Regs.y id ∧
    ShCompletes (.shxAby addr) (addrAbsIndexed true Regs.y addr) Regs.x (fun _ => addr) Regs.y id ∧
    ShCompletes (.shyAbx addr) (addrAbsIndexed true Regs.x addr) Regs.y (fun _ => addr) Regs.x id ∧
    ShCompletes (.tasAby addr) (addrAbsIndexed true Regs.y addr) (fun r => r.a &&& r.x) (fun _ => addr) Regs.y
      (fun r => { r with s := r.a &&& r.x })

/-- O37. Every JAM opcode jams the CPU, and a jammed CPU runs nothing until a reset (46_unofficial.md R540,
60_exceptions.md R618, R626, 10_state.md R71). -/
def Obligations.JamHaltsUntilReset : Prop :=
  (∀ s : State, let t : State := { s with mach := { s.mach with hidden := { s.mach.hidden with jammed := true, intDue := false } } }
    exec .jam02 s = .next t ∧ exec .jam12 s = .next t ∧
    exec .jam22 s = .next t ∧
    exec .jam32 s = .next t ∧
    exec .jam42 s = .next t ∧
    exec .jam52 s = .next t ∧
    exec .jam62 s = .next t ∧
    exec .jam72 s = .next t ∧
    exec .jam92 s = .next t ∧
    exec .jamB2 s = .next t ∧
    exec .jamD2 s = .next t ∧
    exec .jamF2 s = .next t) ∧
  (∀ s : State, s.mach.hidden.jammed = true → s.mach.hidden.rstPending = false →
    ∃ t, step s = .next t ∧ t.mach.hidden.jammed = true ∧ t.mach.regs = s.mach.regs ∧
      t.mach.hidden.intDue = s.mach.hidden.intDue ∧ Kept s t ∧ MemoryKept s t ∧
      t.mach.hidden.cycles = s.mach.hidden.cycles +
        (if s.mach.apu.dmc.bufEmpty = true ∧ s.mach.apu.dmc.remain ≠ 0 then 4 else 1))

/-- O38. An interrupt pushes PC and P with B clear, sets I and goes through the vector (60_exceptions.md R605, R607,
R609, R610, R611, 10_state.md R57, 20_memory.md R114). The order of the clearing in c6 is the model's reading (log
entry 23). -/
def Obligations.InterruptEntersTheHandler : Prop :=
  ∀ s : State, MemoriesOk s.mach → stepKind s = .interrupt →
    let r := s.mach.regs
    let s4 := pushPc (dummyRead r.pc (dummyRead r.pc s))
    let vec : Word := if s4.mach.hidden.nmiPending then 0xFFFA else 0xFFFE
    let s6 := dummyRead vec (push (Spec.image false r.p) s4)
    ∃ t, step s = .next t ∧
      t.mach.regs = { r with s := r.s - 3, p := { r.p with i := true }, pc := vectorWord vec (Spec.image false r.p) s } ∧
      Pushed [BitVec.ofNat 8 (r.pc.toNat / 256), BitVec.ofNat 8 r.pc.toNat, Spec.image false r.p] s t ∧
      t.mach.hidden.nmiPending =
        ((s6.mach.hidden.nmiPending && vec != 0xFFFA) || (t.mach.ppu.nmiOut && !s6.mach.hidden.nmiPrev)) ∧
      t.mach.hidden.intDue = false ∧ t.mach.hidden.jammed = s.mach.hidden.jammed ∧
      t.mach.hidden.cycles = s.mach.hidden.cycles + 7 ∧ Kept s t

/-- O39. A pending reset sets I, lowers S by 3, loads PC from $FFFC and leaves the jam (60_exceptions.md R608, R609,
10_state.md R54, R55, 20_memory.md R114). Where the cartridge drives nothing at the vector the word is open bus, the
last byte read from the stack page (log entry 4 for no cartridge). -/
def Obligations.ResetSequenceStartsAtTheVector : Prop :=
  ∀ s : State, s.mach.hidden.rstPending = true →
    let r := s.mach.regs
    ∃ t, step s = .next t ∧
      t.mach.regs = { r with
        s := r.s - 3, p := { r.p with i := true }
        pc := vectorWord 0xFFFC (Cells.read s.mach.ram (256 + (r.s.toNat + 254) % 256)) s } ∧
      t.mach.hidden.rstPending = false ∧ t.mach.hidden.jammed = false ∧ t.mach.hidden.intDue = false ∧
      t.mach.hidden.cycles = s.mach.hidden.cycles + 7 ∧ MemoryKept s t ∧
      Kept s (updateHidden (fun h => { h with rstPending := true }) t)

/-- O40. Bus reads: work RAM and its mirrors, the cartridge, open bus where nothing drives (20_memory.md R105, R106,
R110, R112, R113, 63_cartridge_mappers.md R858). -/
def Obligations.BusReadsFollowTheMap : Prop :=
  ∀ (a : Word) (v : Byte) (s : State),
    (a.toNat < 0x2000 →
      busRead a s = (Cells.read s.mach.ram (a.toNat % 2048),
        { s with mach := { s.mach with openBus := Cells.read s.mach.ram (a.toNat % 2048) } }) ∧
      busWrite a v s = { s with mach := { s.mach with openBus := v, ram := Cells.write s.mach.ram (a.toNat % 2048) v } }) ∧
    ((0x4000 ≤ a.toNat ∧ a.toNat ≤ 0x4014) ∨ (0x4018 ≤ a.toNat ∧ a.toNat ≤ 0x401F) → busRead a s = (s.mach.openBus, s)) ∧
    (0x4020 ≤ a.toNat →
      let b := (mapperCpuRead s.image s.mach.cart s.mach.mapper a).getD s.mach.openBus
      busRead a s = (b, { s with mach := { s.mach with openBus := b } })) ∧
    (a ≠ 0x4015 → (busRead a s).2.mach.openBus = (busRead a s).1) ∧ (busWrite a v s).mach.openBus = v

/-- O41. A read of $2002 or a mirror delivers the status and clears the vertical-blank flag and the write toggle
(61_ppu.md R672, R694, R680, 20_memory.md R110, R111). -/
def Obligations.StatusReadClearsVerticalBlank : Prop :=
  ∀ (a : Word) (s : State), PpuOk s.mach.ppu → 0x2000 ≤ a.toNat → a.toNat < 0x4000 → a.toNat % 8 = 2 →
    let p := s.mach.ppu
    let v := Spec.byte (128 * Spec.num p.vblankFlag + 64 * Spec.num p.spr0Hit + 32 * Spec.num p.sprOverflow +
      (p.ioLatch.toNat % 32 : Nat))
    let race := decide ((p.scanline = 240 ∧ p.dot = 340) ∨ (p.scanline = 241 ∧ p.dot ≤ 1))
    busRead a s = (v, { s with mach := { s.mach with
      openBus := v
      ppu := { p with vblankFlag := false, w := false, ioLatch := v, suppressVbl := p.suppressVbl || race } } })

/-- O42. Writes of $2000-$2003, $2005 and $2006, their warm-up, and the reads that answer the I/O latch (R676, R677).
-/
def Obligations.PpuControlAndScrollWrites : Prop :=
  ∀ (a : Word) (val : Byte) (s : State), 0x2000 ≤ a.toNat → a.toNat < 0x4000 →
    let p := s.mach.ppu
    let reg := a.toNat % 8
    let q := (busWrite a val s).mach.ppu
    let bits (f : Nat → Bool) : Prop := ∀ i < 15, q.t.getLsbD i = f i
    let writes (p' : Ppu) : Prop := busWrite a val s = { s with mach := { s.mach with openBus := val, ppu := p' } }
    let latched : Ppu := { p with ioLatch := val }
    (reg = 0 ∨ reg = 1 ∨ reg = 3 ∨ reg = 5 ∨ reg = 6 →
      busRead a s = (p.ioLatch, { s with mach := { s.mach with openBus := p.ioLatch } })) ∧
    (p.warmup = true → reg = 0 ∨ reg = 1 ∨ reg = 5 ∨ reg = 6 → writes latched) ∧
    (reg = 2 → writes latched) ∧
    (reg = 3 → writes { latched with oamaddr := val }) ∧
    (p.warmup = false →
      (reg = 0 → writes q ∧ q = { latched with ctrl := val, t := q.t } ∧
        bits fun i => if i = 10 ∨ i = 11 then val.getLsbD (i - 10) else p.t.getLsbD i) ∧
      (reg = 1 → writes { latched with mask := val }) ∧
      (reg = 5 → writes q ∧
        if p.w = false then
          q = { latched with w := true, t := q.t, fineX := q.fineX } ∧ q.fineX.toNat = val.toNat % 8 ∧
            bits fun i => if i < 5 then val.getLsbD (i + 3) else p.t.getLsbD i
        else
          q = { latched with w := false, t := q.t } ∧
            bits fun i => if 12 ≤ i then val.getLsbD (i - 12) else if 5 ≤ i ∧ i < 10 then val.getLsbD (i - 2)
              else p.t.getLsbD i) ∧
      (reg = 6 →
        if p.w = false then
          writes q ∧ q = { latched with w := true, t := q.t } ∧
            bits fun i => if i = 14 then false else if 8 ≤ i then val.getLsbD (i - 8) else p.t.getLsbD i
        else
          busWrite a val s = { s with mach := { s.mach with
            openBus := val, ppu := q, mapper := s.mach.mapper.ppuAddr s.mach.hidden.cycles (q.v.setWidth 14) } } ∧
          q = { latched with w := false, t := q.t, v := q.t } ∧
            bits fun i => if i < 8 then val.getLsbD i else p.t.getLsbD i))

/-- O43. $2004 and $2007: what a read delivers, what a write stores, and how OAMADDR and v move (61_ppu.md R653, R654,
R655, R656, R660, R661, R674, R675, R678, R679, R714, 63_cartridge_mappers.md R857). A $2007 write stores nothing
while rendering is active; else it stores the value: below $2000 in the CHR RAM cell of the mapper's bank, if the
image has no CHR ROM (with no image at the address itself, log entry 4); below $3F00 in the CIRAM or cartridge VRAM
cell of the mirrored page; above in the palette cell; every other cell of every memory is as before. -/
def Obligations.PpuDataPorts : Prop :=
  ∀ (a : Word) (val : Byte) (s : State), 0x2000 ≤ a.toNat → a.toNat < 0x4000 → MemoriesOk s.mach →
    let p := s.mach.ppu
    let i := p.oamaddr.toNat
    let adr : PpuAddr := p.v.setWidth 14
    let n := p.v.toNat
    let x := n % 32
    let y := n / 32 % 32
    let fine := n / 4096
    let glitch := (x + 1) % 32 + 32 * (if fine < 7 then y else if y = 29 ∨ y = 31 then 0 else y + 1) +
      1024 * ((n / 1024 + if x = 31 then 1 else 0) % 2) + 2048 * ((n / 2048 + if fine = 7 ∧ y = 29 then 1 else 0) % 2) +
      4096 * ((fine + 1) % 8)
    let next := if p.renderingActive then glitch else (n + if p.ctrl.getLsbD 2 then 32 else 1) % 2 ^ 15
    let told (m : Mapper) : Mapper := m.ppuAddr s.mach.hidden.cycles adr
    let moved (m : Mapper) (v : BitVec 15) : Mapper :=
      if p.renderingActive then m else m.ppuAddr s.mach.hidden.cycles (v.setWidth 14)
    let byteAt (b : PpuAddr) : Byte := ppuPeek s.ppuWorld s.mach.mapper p.mask b
    let d := (busRead a s).1
    let r := (busRead a s).2.mach
    let m := (busWrite a val s).mach
    let q := m.ppu
    (busRead a s).2 = { s with mach := r } ∧ busWrite a val s = { s with mach := m } ∧
    (a.toNat % 8 = 4 →
      d = Cells.read s.mach.vmem.oam i ∧ r = { s.mach with openBus := d, ppu := { p with ioLatch := d } } ∧
      (p.renderingActive = true →
        m = { s.mach with openBus := val, ppu := { p with ioLatch := val, oamaddr := p.oamaddr + 4 } }) ∧
      (p.renderingActive = false →
        m = { s.mach with openBus := val, ppu := { p with ioLatch := val, oamaddr := p.oamaddr + 1 }
                          vmem := { s.mach.vmem with oam := m.vmem.oam } } ∧
        ∀ k, Cells.read m.vmem.oam k =
          if k = i then (if i % 4 = 2 then val &&& 0xE3 else val) else Cells.read s.mach.vmem.oam k)) ∧
    (a.toNat % 8 = 7 →
      r = { s.mach with
        openBus := d, ppu := { p with ioLatch := d, readBuffer := r.ppu.readBuffer, v := r.ppu.v }
        mapper := moved (told s.mach.mapper) r.ppu.v } ∧
      r.ppu.v.toNat = next ∧
      (adr.toNat < 0x3F00 → d = p.readBuffer ∧ r.ppu.readBuffer = byteAt adr) ∧
      (0x3F00 ≤ adr.toNat → d.toNat = p.ioLatch.toNat / 64 * 64 + (byteAt adr).toNat % 64 ∧
        r.ppu.readBuffer = byteAt (adr - 0x1000)) ∧
      m = { s.mach with
        openBus := val, ppu := { p with ioLatch := val, v := q.v }, vmem := m.vmem, cart := m.cart
        mapper := moved (if p.renderingActive then s.mach.mapper else told s.mach.mapper) q.v } ∧
      q.v.toNat = next ∧
      (p.renderingActive = true → m.vmem = s.mach.vmem ∧ m.cart = s.mach.cart) ∧
      (p.renderingActive = false →
        let page := (mapperMirroring s.image s.mach.mapper).page (adr.toNat / 1024 % 4)
        let off := adr.toNat % 1024
        let chrCell (k : Nat) : Bool := match s.image with
          | none => k == adr.toNat
          | some img => img.chrCount == 0 && k == chrOffset s.mach.mapper 8192 adr % 8192
        m.vmem.oam = s.mach.vmem.oam ∧ m.cart.prgRam = s.mach.cart.prgRam ∧
        (∀ k, Cells.read m.cart.chrRam k = if adr.toNat < 0x2000 ∧ chrCell k = true then val else Cells.read s.mach.cart.chrRam k) ∧
        (∀ k, Cells.read m.vmem.ciram k =
          if 0x2000 ≤ adr.toNat ∧ adr.toNat < 0x3F00 ∧ page < 2 ∧ k = page * 1024 + off then val
          else Cells.read s.mach.vmem.ciram k) ∧
        (∀ k, Cells.read m.cart.cartVram k =
          if 0x2000 ≤ adr.toNat ∧ adr.toNat < 0x3F00 ∧ 2 ≤ page ∧ k = (page - 2) * 1024 + off then val
          else Cells.read s.mach.cart.cartVram k) ∧
        m.vmem.palette =
          if 0x3F00 ≤ adr.toNat then (paletteWrite s.mach.vmem adr.toNat val).palette else s.mach.vmem.palette))

/-- O44. A palette write is read back through its mirrors and nowhere else, in six bits (61_ppu.md R653, R660, R671).
-/
def Obligations.PaletteMirrors : Prop :=
  ∀ (vmem : VideoMem) (mask val : Byte) (a b : Nat), Cells.wf vmem.palette = true →
    paletteRead (paletteWrite vmem a val) mask b =
      if a % 32 = b % 32 ∨ (a % 4 = 0 ∧ a % 16 = b % 16) then
        (if mask.getLsbD 0 then BitVec.ofNat 6 (val.toNat / 16 % 4 * 16) else BitVec.ofNat 6 val.toNat)
      else paletteRead vmem mask b

/-- O45. One PPU tick: the counters, the frame's end, the status flags and the warm-up (61_ppu.md R690, R691, R692,
R695, R693). -/
def Obligations.DotsAdvanceTheGrid : Prop :=
  ∀ (w : PpuWorld) (o : DotOut), PpuOk o.ppu →
    let p := o.ppu
    let q := (ppuTick w o).ppu
    let enabled := p.mask.getLsbD 3 || p.mask.getLsbD 4
    let last := p.scanline = 261 ∧ (p.dot = 340 ∨ (p.dot = 339 ∧ p.frameOdd = true ∧ enabled = true))
    (if last then
      q.scanline = 0 ∧ q.dot = 0 ∧ q.frameOdd = !p.frameOdd ∧ (ppuTick w o).frame = some q.fbWork ∧ (ppuTick w o).done = true
     else
      q.frameOdd = p.frameOdd ∧ (ppuTick w o).frame = o.frame ∧ (ppuTick w o).done = o.done ∧
        341 * q.scanline + q.dot = 341 * p.scanline + p.dot + 1 ∧ q.dot ≤ 340) ∧
    (if p.scanline = 241 ∧ p.dot = 1 then
      q.suppressVbl = false ∧ q.vblankFlag = (p.vblankFlag || !p.suppressVbl) ∧ q.warmup = p.warmup ∧
        q.spr0Hit = p.spr0Hit ∧ q.sprOverflow = p.sprOverflow
     else if p.scanline = 261 ∧ p.dot = 1 then
      q.vblankFlag = false ∧ q.spr0Hit = false ∧ q.sprOverflow = false ∧ q.warmup = false ∧ q.suppressVbl = p.suppressVbl
     else
      q.vblankFlag = p.vblankFlag ∧ q.suppressVbl = p.suppressVbl ∧ q.warmup = p.warmup ∧
        (p.spr0Hit = true → q.spr0Hit = true) ∧ (p.sprOverflow = true → q.sprOverflow = true))

/-- O46. Every write of $4000-$4013, $4015 and $4017, and a read of $4015 (R754, R760, R764, R766, R768, R769). -/
def Obligations.ApuRegisters : Prop :=
  ∀ (v : Byte) (s : State), let a := s.mach.apu
    let n := v.toNat
    let length : Byte := BitVec.ofNat 8 (([10, 254, 20, 2, 40, 4, 80, 6, 160, 8, 60, 10, 14, 12, 26, 14, 12, 16, 24, 18, 48, 20,
      96, 22, 192, 24, 72, 26, 16, 28, 32, 30] : List Nat).getD (n / 8) 0)
    let writes (w : Word) (b : Apu) : Prop := busWrite w v s = { s with mach := { s.mach with openBus := v, apu := b } }
    let r0 (p : Pulse) : Pulse :=
      { p with duty := BitVec.ofNat 2 (n / 64), halt := v.getLsbD 5, constVol := v.getLsbD 4, vol := BitVec.ofNat 4 n }
    let r1 (p : Pulse) : Pulse :=
      { p with swEn := v.getLsbD 7, swPer := BitVec.ofNat 3 (n / 16), swNeg := v.getLsbD 3, swShift := BitVec.ofNat 3 n
               swReload := true }
    let low (period : BitVec 11) : BitVec 11 := BitVec.ofNat 11 (period.toNat / 256 * 256 + n)
    let high (period : BitVec 11) : BitVec 11 := BitVec.ofNat 11 (n % 8 * 256 + period.toNat % 256)
    let r3 (en : Bool) (p : Pulse) : Pulse :=
      { p with period := high p.period, len := if en = true then length else p.len, seq := 0
               env := { p.env with start := true } }
    writes 0x4000 { a with p1 := r0 a.p1 } ∧ writes 0x4004 { a with p2 := r0 a.p2 } ∧
    writes 0x4001 { a with p1 := r1 a.p1 } ∧ writes 0x4005 { a with p2 := r1 a.p2 } ∧
    writes 0x4002 { a with p1 := { a.p1 with period := low a.p1.period } } ∧
    writes 0x4006 { a with p2 := { a.p2 with period := low a.p2.period } } ∧
    writes 0x4003 { a with p1 := r3 a.enP1 a.p1 } ∧ writes 0x4007 { a with p2 := r3 a.enP2 a.p2 } ∧
    writes 0x4008 { a with tri := { a.tri with ctrl := v.getLsbD 7, linLoad := BitVec.ofNat 7 n } } ∧
    writes 0x4009 a ∧ writes 0x400D a ∧
    writes 0x400A { a with tri := { a.tri with period := low a.tri.period } } ∧
    writes 0x400B { a with tri := { a.tri with
      period := high a.tri.period, len := if a.enTri = true then length else a.tri.len, linReload := true } } ∧
    writes 0x400C { a with noi := { a.noi with halt := v.getLsbD 5, constVol := v.getLsbD 4, vol := BitVec.ofNat 4 n } } ∧
    writes 0x400E { a with noi := { a.noi with mode := v.getLsbD 7, perIdx := BitVec.ofNat 4 n } } ∧
    writes 0x400F { a with noi := { a.noi with
      len := if a.enNoi = true then length else a.noi.len, env := { a.noi.env with start := true } } } ∧
    writes 0x4010 { a with dmc := { a.dmc with
      irqEn := v.getLsbD 7, loop := v.getLsbD 6, rateIdx := BitVec.ofNat 4 n
      irq := if v.getLsbD 7 = true then a.dmc.irq else false } } ∧
    writes 0x4011 { a with dmc := { a.dmc with level := BitVec.ofNat 7 n } } ∧
    writes 0x4012 { a with dmc := { a.dmc with startAddr := BitVec.ofNat 16 (0xC000 + 64 * n) } } ∧
    writes 0x4013 { a with dmc := { a.dmc with length := BitVec.ofNat 12 (16 * n + 1) } } ∧
    (let dmc := if v.getLsbD 4 = false then { a.dmc with remain := 0 }
       else if a.dmc.remain = 0 then { a.dmc with addr := a.dmc.startAddr, remain := a.dmc.length } else a.dmc
     writes 0x4015 { a with
       enP1 := v.getLsbD 0, enP2 := v.getLsbD 1, enTri := v.getLsbD 2, enNoi := v.getLsbD 3
       p1 := { a.p1 with len := if v.getLsbD 0 = true then a.p1.len else 0 }
       p2 := { a.p2 with len := if v.getLsbD 1 = true then a.p2.len else 0 }
       tri := { a.tri with len := if v.getLsbD 2 = true then a.tri.len else 0 }
       noi := { a.noi with len := if v.getLsbD 3 = true then a.noi.len else 0 }
       dmc := { dmc with irq := false } }) ∧
    writes 0x4017 { a with fc := { a.fc with
      mode := v.getLsbD 7, inhibit := v.getLsbD 6, irq := if v.getLsbD 6 = true then false else a.fc.irq
      resetDelay := if s.mach.hidden.cycles % 2 = 1 then 4 else 5 } } ∧
    (let b := (busRead 0x4015 s).1
     (busRead 0x4015 s).2 = { s with mach := { s.mach with apu := { a with fc := { a.fc with irq := false } } } } ∧
     b.getLsbD 7 = a.dmc.irq ∧ b.getLsbD 6 = a.fc.irq ∧ b.getLsbD 5 = s.mach.openBus.getLsbD 5 ∧
     b.getLsbD 4 = decide (0 < a.dmc.remain.toNat) ∧ b.getLsbD 3 = decide (0 < a.noi.len.toNat) ∧
     b.getLsbD 2 = decide (0 < a.tri.len.toNat) ∧ b.getLsbD 1 = decide (0 < a.p2.len.toNat) ∧
     b.getLsbD 0 = decide (0 < a.p1.len.toNat))

/-- O47. The frame sequencer: its count, delayed reset and interrupt, and what its clocks do to the units (62_apu.md
R780, R781, R782, R783, R784, R785, R786). Where the delayed reset of a $4017 write comes due the count becomes 0, in
5-step mode with a quarter and a half frame; else the count goes up by 1 (it stops at 37286, log entry 25) and its new
value gives the quarter frames, the half frames, the return to 0 and, in 4-step mode unless inhibited, the frame
interrupt at 29828 to 29830. -/
def Obligations.FrameSequencerClocksTheUnits : Prop :=
  ∀ a : Apu, let f := a.fc
    let due := decide (f.resetDelay = 1)
    let count := min (f.cycle + 1) 37286
    let half := if due then f.mode else decide (count = 14913 ∨ count = if f.mode = true then 37281 else 29829)
    let quarter := half || (!due && decide (count = 7457 ∨ count = 22371))
    let env (e : Envelope) (vol : BitVec 4) (loop : Bool) : Envelope :=
      if quarter = false then e
      else if e.start = true then { start := false, div := vol, decay := 15 }
      else if e.div.toNat = 0 then
        { e with div := vol, decay := if 0 < e.decay.toNat then BitVec.ofNat 4 (e.decay.toNat - 1)
                                      else if loop = true then 15 else 0 }
      else { e with div := BitVec.ofNat 4 (e.div.toNat - 1) }
    let len (l : Byte) (halt : Bool) : Byte :=
      if half = true ∧ 0 < l.toNat ∧ halt = false then BitVec.ofNat 8 (l.toNat - 1) else l
    let pulse (one : Bool) (p : Pulse) : Pulse :=
      let change : Int := (p.period.toNat / 2 ^ p.swShift.toNat : Nat)
      let target : Int := if p.swNeg = true then p.period.toNat - change - (if one = true then 1 else 0) else p.period.toNat + change
      let moves := half = true ∧ p.swDiv.toNat = 0 ∧ p.swEn = true ∧ p.swShift.toNat ≠ 0 ∧ 8 ≤ p.period.toNat ∧ target ≤ 0x7FF
      let reload := p.swDiv.toNat = 0 ∨ p.swReload = true
      { p with
        env := env p.env p.vol p.halt
        period := if moves then BitVec.ofInt 11 target else p.period
        swDiv := if half = false then p.swDiv else if reload then p.swPer else BitVec.ofNat 3 (p.swDiv.toNat - 1)
        swReload := if half = true ∧ reload then false else p.swReload
        len := len p.len p.halt }
    a.sequencer = { a with
      p1 := pulse true a.p1, p2 := pulse false a.p2
      tri := { a.tri with
        lin := if quarter = false then a.tri.lin else if a.tri.linReload = true then a.tri.linLoad
          else BitVec.ofNat 7 (a.tri.lin.toNat - 1)
        linReload := if quarter = true ∧ a.tri.ctrl = false then false else a.tri.linReload
        len := len a.tri.len a.tri.ctrl }
      noi := { a.noi with env := env a.noi.env a.noi.vol a.noi.halt, len := len a.noi.len a.noi.halt }
      fc := { f with
        resetDelay := f.resetDelay - 1
        cycle := if due = true ∨ count = (if f.mode = true then 37282 else 29830) then 0 else count
        irq := f.irq || (!due && !f.inhibit && !f.mode && decide (29828 ≤ count ∧ count ≤ 29830)) } }

/-- O48. The channel timers and outputs, the exact mixer, and the resampler of every cycle (62_apu.md R775, R776,
R777, R787, R788, R789, R791, R800, R801, R802, R803). Every cycle steps the sequencer and then the timers, and the
resampler adds 11 SAMPLE_RATE (an open parameter, log entry 2) and emits a stereo frame of that sample where it passes
19687500, the oldest frame of a full buffer lost. The output of a stopped triangle, its length counter at 0 among the
causes, is its last one (62_apu.md R788; R785 says that a channel whose len is 0 outputs 0: the model's choice, log
entry 29). -/
def Obligations.TimersOutputsMixerAndResampler : Prop :=
  (∀ (a : Apu) (cycles : Nat) (c : Channels),
    let odd := cycles % 2 = 1
    let noiseReload := ([4, 8, 16, 32, 64, 96, 128, 160, 202, 254, 380, 508, 762, 1016, 2034, 4068] : List Nat).getD a.noi.perIdx.toNat 0 / 2 - 1
    let dmcReload := ([428, 380, 340, 320, 286, 254, 226, 214, 190, 160, 142, 128, 106, 84, 72, 54] : List Nat).getD a.dmc.rateIdx.toNat 0 / 2 - 1
    let pulse (p : Pulse) : Pulse :=
      if p.timer.toNat = 0 then { p with timer := p.period, seq := BitVec.ofNat 3 (p.seq.toNat + 7) }
      else { p with timer := BitVec.ofNat 11 (p.timer.toNat - 1) }
    let t := a.tri
    let n := a.noi
    let d := a.dmc
    let bit (k : Nat) : Nat := n.lfsr.toNat / 2 ^ k % 2
    let level := if d.silence = true then d.level.toNat
      else if d.shift.toNat % 2 = 1 then (if d.level.toNat ≤ 125 then d.level.toNat + 2 else d.level.toNat)
      else (if 2 ≤ d.level.toNat then d.level.toNat - 2 else d.level.toNat)
    let last := d.bits ≤ 1
    a.timers cycles = { a with
      p1 := if odd then pulse a.p1 else a.p1
      p2 := if odd then pulse a.p2 else a.p2
      tri := if t.timer.toNat = 0 then
          { t with timer := t.period
                   seq := if 0 < t.len.toNat ∧ 0 < t.lin.toNat then BitVec.ofNat 5 (t.seq.toNat + 1) else t.seq }
        else { t with timer := BitVec.ofNat 11 (t.timer.toNat - 1) }
      noi := if ¬ odd then n else if n.timer.toNat = 0 then
          { n with timer := BitVec.ofNat 12 noiseReload
                   lfsr := BitVec.ofNat 15 (n.lfsr.toNat / 2 + 16384 * ((bit 0 + bit (if n.mode = true then 6 else 1)) % 2)) }
        else { n with timer := BitVec.ofNat 12 (n.timer.toNat - 1) }
      dmc := if ¬ odd then d else if d.timer.toNat = 0 then
          { d with
            timer := BitVec.ofNat 9 dmcReload, level := BitVec.ofNat 7 level
            bits := if last then 8 else d.bits - 1
            silence := if last then d.bufEmpty else d.silence
            shift := if last ∧ d.bufEmpty = false then d.buffer else BitVec.ofNat 8 (d.shift.toNat / 2)
            bufEmpty := if last then true else d.bufEmpty }
        else { d with timer := BitVec.ofNat 9 (d.timer.toNat - 1) } } ∧
    (let volume (const : Bool) (vol : BitVec 4) (e : Envelope) : Nat := if const = true then vol.toNat else e.decay.toNat
     let duty (k : BitVec 2) : List Nat := ([[0, 0, 0, 0, 0, 0, 0, 1], [0, 0, 0, 0, 0, 0, 1, 1], [0, 0, 0, 0, 1, 1, 1, 1],
       [1, 1, 1, 1, 1, 1, 0, 0]] : List (List Nat)).getD k.toNat []
     let out (p : Pulse) : Nat :=
       let change := p.period.toNat / 2 ^ p.swShift.toNat
       if (duty p.duty).getD p.seq.toNat 0 = 0 ∨ p.len.toNat = 0 ∨ p.period.toNat < 8 ∨
         (p.swNeg = false ∧ 0x7FF < p.period.toNat + change) then 0 else volume p.constVol p.vol p.env
     let gate (on : Bool) (k : Nat) : Rat := if on = true then k else 0
     let pm : Rat := gate c.square1 (out a.p1) + gate c.square2 (out a.p2)
     let tm : Rat := 3 * gate c.triangle (if t.seq.toNat < 16 then 15 - t.seq.toNat else t.seq.toNat - 16) +
       2 * gate c.noise (if n.lfsr.toNat % 2 = 1 ∨ n.len.toNat = 0 then 0 else volume n.constVol n.vol n.env) +
       gate c.dmc d.level.toNat
     ((a.mix c).toNat : Int) = (32767 * (597 * pm / (50800 + 625 * pm) + 16367 * tm / (2432900 + 10000 * tm))).floor ∧
     (a.mix c).toNat ≤ 32767)) ∧
  (∀ s : State,
    let u := s.mach.apu.sequencer.timers s.mach.hidden.cycles
    let acc := u.rsAcc + 11 * Config.sampleRate
    let buf := s.host.audio
    let sample := u.mix s.host.channels
    (endCycle s).mach.apu = { u with rsAcc := if 19687500 ≤ acc then acc - 19687500 else acc } ∧
    (endCycle s).host.audio = if acc < 19687500 then buf
      else (if 4 * ((Config.sampleRate + 59) / 60) ≤ buf.length then buf.drop 1 else buf) ++ [(sample, sample)])

/-- O49. OAM DMA copies a page of memory to OAM in 513 or 514 cycles (20_memory.md R115, 61_ppu.md R654, R675,
60_exceptions.md R617, 70_reset_and_hazards.md R1031). -/
def Obligations.OamDmaCopiesThePage : Prop :=
  ∀ (s : State) (b : Byte → Byte), MemoriesOk s.mach → s.mach.ppu.renderingEnabled = false →
    (∀ i, memByte (word s.mach.dmaPage i) s = some (b i)) →
    let t := oamDma s
    (∀ i : Byte, Cells.read t.mach.vmem.oam (s.mach.ppu.oamaddr + i).toNat =
      if (s.mach.ppu.oamaddr + i).toNat % 4 = 2 then b i &&& 0xE3 else b i) ∧
    t.mach.ppu.oamaddr = s.mach.ppu.oamaddr ∧ t.mach.dmaReq = false ∧
    t.mach.hidden.cycles = s.mach.hidden.cycles + (if s.mach.hidden.cycles % 2 = 1 then 513 else 514) ∧
    t.mach.ram = s.mach.ram ∧ t.mach.cart = s.mach.cart ∧ t.mach.vmem.palette = s.mach.vmem.palette ∧
    t.mach.vmem.ciram = s.mach.vmem.ciram ∧ t.mach.regs = s.mach.regs ∧
    t.mach.hidden.intDue = s.mach.hidden.intDue ∧ t.mach.hidden.jammed = s.mach.hidden.jammed ∧ Kept s t

/-- O50. The DMC stall takes four cycles and fetches the next sample byte (62_apu.md R790, R792, R793,
60_exceptions.md R609, R617). -/
def Obligations.DmcStallFetchesTheSample : Prop :=
  ∀ s : State, s.mach.hidden.rstPending = false → s.mach.apu.dmc.bufEmpty = true → s.mach.apu.dmc.remain ≠ 0 →
    let d := s.mach.apu.dmc
    let ends := d.remain.toNat = 1
    ∃ t, step s = .next t ∧ t.mach.hidden.cycles = s.mach.hidden.cycles + 4 ∧ t.mach.regs = s.mach.regs ∧
      t.mach.hidden.intDue = s.mach.hidden.intDue ∧ t.mach.hidden.jammed = s.mach.hidden.jammed ∧
      Kept s t ∧ MemoryKept s t ∧
      t.mach.apu.dmc.buffer = peek d.addr (endCycle (endCycle (endCycle s))) ∧
      (∀ b, memByte d.addr s = some b → t.mach.apu.dmc.buffer = b) ∧ t.mach.apu.dmc.bufEmpty = false ∧
      t.mach.apu.dmc.addr = (if ends ∧ d.loop = true then d.startAddr
        else if d.addr.toNat = 0xFFFF then 0x8000 else d.addr + 1) ∧
      t.mach.apu.dmc.remain = (if ends ∧ d.loop = true then d.length else d.remain - 1) ∧
      t.mach.apu.dmc.irq = (d.irq || decide (ends ∧ d.loop = false ∧ d.irqEn = true))

/-- O51. What each mapper shows at $4020-$FFFF and in CHR memory, and where it puts the nametables
(63_cartridge_mappers.md R855, R856, R858, R859, R863, R864, R865, R866, R868, R871, R872, R873). (An image with an
odd number of 16 KB banks under mapper 7 is log entry 10.) -/
def Obligations.MapperBanksAndMirroring : Prop :=
  (∀ (img : Image) (c : Cart) (m : Mapper) (a : Word),
    (a.toNat < 0x6000 → mapperCpuRead (some img) c m a = none) ∧
    (0x6000 ≤ a.toNat → a.toNat < 0x8000 → mapperCpuRead (some img) c m a =
      if (match m with
        | .mmc1 r => decide (r.prg.toNat < 16)
        | .mmc3 r => r.ramEn
        | .nrom | .uxrom _ | .cnrom _ | .axrom _ => true) = true
      then some (Cells.read c.prgRam (a.toNat - 0x6000)) else none)) ∧
  (∀ (img : Image) (c : Cart) (a : Word), img.prgCount ≠ 0 → 0x8000 ≤ a.toNat →
    let n := img.prgCount.toNat
    let low := a.toNat < 0xC000
    let rom (i : Nat) : Option Byte := some (Cells.read img.prgRom i)
    (mapperCpuRead (some img) c .nrom a = rom ((a.toNat - 0x8000) % (16384 * n))) ∧
    (∀ r, mapperCpuRead (some img) c (.cnrom r) a = rom ((a.toNat - 0x8000) % (16384 * n))) ∧
    (∀ b, mapperCpuRead (some img) c (.uxrom b) a =
      rom (16384 * (if low then b.toNat % n else n - 1) + a.toNat % 16384)) ∧
    (∀ r, n % 2 = 0 → mapperCpuRead (some img) c (.axrom r) a =
      rom (32768 * (r.toNat % 8 % (n / 2)) + (a.toNat - 0x8000))) ∧
    (∀ r : Mmc3,
      let r6 := (r.reg 6).toNat % 64 % (2 * n)
      let r7 := (r.reg 7).toNat % 64 % (2 * n)
      let bank := if a.toNat < 0xA000 then (if r.prgMode then 2 * n - 2 else r6) else if low then r7
        else if a.toNat < 0xE000 then (if r.prgMode then r6 else 2 * n - 2) else 2 * n - 1
      mapperCpuRead (some img) c (.mmc3 r) a = rom (8192 * bank + a.toNat % 8192)) ∧
    (∀ r : Mmc1,
      let outer := if n = 32 ∧ r.chr0.getLsbD 4 = true then 16 else 0
      let b := r.prg.toNat % 16
      let mode := r.ctrl.toNat / 4 % 4
      let bank := if mode < 2 then outer + b / 2 * 2 + (if low then 0 else 1)
        else if mode = 2 then (if low then outer else outer + b) else (if low then outer + b else outer + 15)
      mapperCpuRead (some img) c (.mmc1 r) a = rom (16384 * (bank % n) + a.toNat % 16384))) ∧
  (∀ (img : Image) (c : Cart) (a : PpuAddr) (v : Byte), a.toNat < 0x2000 →
    let k := if img.chrCount.toNat = 0 then 1 else img.chrCount.toNat
    let n := a.toNat
    let shows (m : Mapper) (i : Nat) : Prop := chrRead (some img) c m a =
      if img.chrCount.toNat = 0 then Cells.read c.chrRam i else Cells.read img.chrRom i
    shows .nrom n ∧ (∀ b, shows (.uxrom b) n) ∧ (∀ r, shows (.axrom r) n) ∧
    (∀ r, shows (.cnrom r) (8192 * (r.toNat % k) + n)) ∧
    (∀ r : Mmc1, shows (.mmc1 r) (if r.ctrl.getLsbD 4 = true then
      4096 * ((if n < 4096 then r.chr0.toNat else r.chr1.toNat) % (2 * k)) + n % 4096
      else 8192 * (r.chr0.toNat / 2 % k) + n)) ∧
    (∀ r : Mmc3,
      let slot := if r.chrInv = true then (n / 1024 + 4) % 8 else n / 1024
      let bank := if slot < 4 then (r.reg (if slot < 2 then 0 else 1)).toNat / 2 * 2 + slot % 2
        else (r.reg (BitVec.ofNat 3 (slot - 2))).toNat
      shows (.mmc3 r) (1024 * (bank % (8 * k)) + n % 1024)) ∧
    (img.chrCount.toNat ≠ 0 → ∀ m, chrWrite (some img) c m a v = c)) ∧
  (∀ (img : Image) (m : Mapper) (n : Nat), n < 4 →
    (mapperMirroring (some img) m).page n =
      if img.fourScreen = true then n
      else match m with
      | .mmc1 r => if r.ctrl.toNat % 4 < 2 then r.ctrl.toNat % 4 else if r.ctrl.toNat % 4 = 2 then n % 2 else n / 2
      | .mmc3 r => if r.mirror = true then n / 2 else n % 2
      | .axrom r => r.toNat / 16 % 2
      | .nrom | .uxrom _ | .cnrom _ => if img.vertical = true then n % 2 else n / 2)

/-- O52. Writes to $8000-$FFFF: the bank registers, and the five writes that load an MMC1 register
(63_cartridge_mappers.md R861, R866, R867, R868, R870, R883, 20_memory.md R107). Cycles are compared in 64 bits (log
entry 6). -/
def Obligations.MapperRegisterWrites : Prop :=
  (∀ (s : State) (a : Word) (v : Byte), s.image.isSome = true → 0x8000 ≤ a.toNat →
    let m := (busWrite a v s).mach
    busWrite a v s = { s with mach := { s.mach with openBus := v, mapper := m.mapper } } ∧
    (s.mach.mapper = .nrom → m.mapper = .nrom) ∧ (∀ b, s.mach.mapper = .uxrom b → m.mapper = .uxrom v) ∧
    (∀ b, s.mach.mapper = .cnrom b → m.mapper = .cnrom v) ∧ (∀ b, s.mach.mapper = .axrom b → m.mapper = .axrom v) ∧
    (∀ r, s.mach.mapper = .mmc1 r → m.mapper = .mmc1 (r.write s.mach.hidden.cycles a v)) ∧
    (∀ r, s.mach.mapper = .mmc3 r →
      let row (base low : Nat) : Prop := base ≤ a.toNat ∧ a.toNat < base + 0x2000 ∧ a.toNat % 2 = low
      ∃ q : Mmc3, m.mapper = .mmc3 q ∧
        (row 0x8000 0 → q = { r with
          sel := BitVec.ofNat 3 v.toNat, prgMode := v.getLsbD 6, chrInv := v.getLsbD 7 }) ∧
        (row 0x8000 1 → q = { r with r := q.r } ∧ ∀ i : Fin 8, q.r[i] = if i.val = r.sel.toNat then v else r.r[i]) ∧
        (row 0xA000 0 → q = { r with mirror := v.getLsbD 0 }) ∧
        (row 0xA000 1 → q = { r with ramEn := v.getLsbD 7, ramWp := v.getLsbD 6 }) ∧
        (row 0xC000 0 → q = { r with latch := v }) ∧
        (row 0xC000 1 → q = { r with counter := 0, reload := true }) ∧
        (row 0xE000 0 → q = { r with irqEn := false, irq := false }) ∧
        (row 0xE000 1 → q = { r with irqEn := true }))) ∧
  (∀ (r : Mmc1) (c1 c2 c3 c4 c5 : Nat) (a1 a2 a3 a4 a5 : Word) (v1 v2 v3 v4 v5 : Byte),
    let stamp (c : Nat) : BitVec 64 := BitVec.ofNat 64 c
    r.shift = 0 → r.count = 0 → stamp c1 ≠ r.lastWrite + 1 → stamp c2 ≠ stamp c1 + 1 → stamp c3 ≠ stamp c2 + 1 →
    stamp c4 ≠ stamp c3 + 1 → stamp c5 ≠ stamp c4 + 1 →
    v1.toNat < 128 → v2.toNat < 128 → v3.toNat < 128 → v4.toNat < 128 → v5.toNat < 128 →
    let q := ((((r.write c1 a1 v1).write c2 a2 v2).write c3 a3 v3).write c4 a4 v4).write c5 a5 v5
    let value := BitVec.ofNat 5 (v1.toNat % 2 + 2 * (v2.toNat % 2) + 4 * (v3.toNat % 2) + 8 * (v4.toNat % 2) +
      16 * (v5.toNat % 2))
    let sel := a5.toNat / 8192 % 4
    q = { r with lastWrite := stamp c5, ctrl := if sel = 0 then value else r.ctrl, chr0 := if sel = 1 then value else r.chr0
                 chr1 := if sel = 2 then value else r.chr1, prg := if sel = 3 then value else r.prg }) ∧
  (∀ (r : Mmc1) (c : Nat) (a : Word) (v : Byte),
    (BitVec.ofNat 64 c = r.lastWrite + 1 → r.write c a v = r) ∧
    (BitVec.ofNat 64 c ≠ r.lastWrite + 1 → 128 ≤ v.toNat →
      r.write c a v = { r with lastWrite := BitVec.ofNat 64 c, shift := 0, count := 0, ctrl := r.ctrl ||| 0x0C }))

/-- O53. The MMC3 scanline counter, the filter of A12, and how the interrupt line rises and falls
(63_cartridge_mappers.md R850, R870, R880, R881, 00_scope.md R11). The difference of the cycle counts is reckoned in
64 bits (log entry 6). -/
def Obligations.ScanlineCounterRaisesTheIrq : Prop :=
  (∀ r : Mmc3, let q := r.clockCounter
    q = { r with counter := q.counter, reload := false, irq := q.irq } ∧
    q.counter.toNat = (if r.counter.toNat = 0 ∨ r.reload = true then r.latch.toNat else r.counter.toNat - 1) ∧
    q.irq = (r.irq || (decide (q.counter.toNat = 0) && r.irqEn)) ∧ (Mapper.mmc3 r).irq = r.irq) ∧
  (∀ (r : Mmc3) (a : Word) (v : Byte), 0x8000 ≤ a.toNat →
    (r.write a v).irq = (r.irq && !decide (0xE000 ≤ a.toNat ∧ a.toNat % 2 = 0))) ∧
  (∀ (r : Mmc3) (cycles : Nat) (a : PpuAddr),
    (Mapper.mmc3 r).ppuAddr cycles a =
      if a.toNat / 4096 % 2 = 1 then
        .mmc3 { (if 3 ≤ (cycles + 2 ^ 64 - r.a12LastHigh.toNat) % 2 ^ 64 then r.clockCounter else r) with
          a12LastHigh := BitVec.ofNat 64 cycles }
      else .mmc3 r) ∧
  (∀ (m : Mapper) (cycles : Nat) (a : PpuAddr), (∀ r, m ≠ .mmc3 r) → m.ppuAddr cycles a = m ∧ m.irq = false)

/-- O54. After a strobe the ports deliver the eight latched buttons in order, then 1 (64_frame_driver_io.md R900,
R901, R903, 70_reset_and_hazards.md R1033). That $4017 reads as port 2 is what R903 and 20_memory.md R110 say;
62_apu.md R752 says that its reads return open_bus: the model's choice, log entry 28. -/
def Obligations.ControllersShiftOutTheButtons : Prop :=
  (∀ (s : State) (v : Byte), (busWrite 0x4016 v s).mach.ports = s.mach.ports.strobeWrite v ∧
    (busRead 0x4016 s).1.toNat = s.mach.openBus.toNat / 32 * 32 + (if s.mach.ports.readBit false = true then 1 else 0) ∧
    (busRead 0x4017 s).1.toNat = s.mach.openBus.toNat / 32 * 32 + (if s.mach.ports.readBit true = true then 1 else 0) ∧
    (busRead 0x4016 s).2.mach.ports = s.mach.ports.shifted false ∧
    (busRead 0x4017 s).2.mach.ports = s.mach.ports.shifted true) ∧
  (∀ (p : Ports) (reads : List Bool) (second : Bool),
    let q := reads.foldl Ports.shifted ((p.strobeWrite 1).strobeWrite 0)
    let latched := if second then p.latched1 else p.latched0
    let k := reads.count second
    q.readBit second = (if k < 8 then latched.getLsbD k else true) ∧
    (reads.foldl Ports.shifted (p.strobeWrite 1)).readBit second = latched.getLsbD 0)

/-- O55. runFrame always comes to the end of a frame (64_frame_driver_io.md R902, R908, 61_ppu.md R690, R695,
46_unofficial.md R540). The bound on the steps is the model's (log entry 19). -/
def Obligations.RunFrameCompletesAFrame : Prop :=
  ∀ (s : State) (now : Rat), s.Inv → s.host.control = .running → let t := (runFrame now s).2
    t.mach.frameDone = true ∧ t.host.frameBuffer.isSome = true ∧ t.mach.frameCount = s.mach.frameCount + 1 ∧
      t.mach.ports.latched0 = s.host.input0 ∧ t.mach.ports.latched1 = s.host.input1

/-- O56. Loading a saved snapshot over any machine of the same image yields the machine that was saved (65_snapshot.md
R950, R953, R970, R971, R972, R973, R974, R980). For every state in Ready, Running or Paused whose machine meets the
invariant and the ranges that a snapshot can hold (the cycle count below 2^64, log entry 21; the mapper that of the
image, log entry 22), and every other state of the same image in one of those three states, whatever its machine:
loading there the blob that saving gives succeeds, puts the saved machine in the place of the current one, empties the
audio buffer, and leaves the image and the rest of the host side as they were. What a snapshot does not hold stays:
the OAM DMA request and page (log entry 18), and CHR RAM and cartridge VRAM where the image has none (log entry 24).
-/
def Obligations.SaveThenLoadRestoresTheMachine : Prop :=
  ∀ (s s' : State) (img : Image), s.image = some img → s.host.control.live = true → s.Inv → SnapshotFits img s.mach →
    s'.image = some img → s'.host.control.live = true →
    ∃ blob, s.blob = some blob ∧
      call (.loadStateFromBuffer blob) s' = (.bool true, { s' with
        mach := { s.mach with
          dmaReq := s'.mach.dmaReq, dmaPage := s'.mach.dmaPage
          cart := { s.mach.cart with
            chrRam := if img.chrCount = 0 then s.mach.cart.chrRam else s'.mach.cart.chrRam
            cartVram := if img.fourScreen = true then s.mach.cart.cartVram else s'.mach.cart.cartVram } }
        host := { s'.host with audio := [] } })

/-- O57. loadROM and the snapshot load: which result, which image, and that a failure changes nothing
(63_cartridge_mappers.md R852, R853, R854, R885, 00_scope.md R9, 64_frame_driver_io.md R925, 65_snapshot.md R952,
R970, R971, R972, R973, R975). The set of supported ids is the core's parameter (log entry 27), and the last check of
loadROM is the host's argument (log entry 15). -/
def Obligations.LoadsCommitOrChangeNothing : Prop :=
  (∀ (name : List Byte) (data : Option (List Byte)) (ok : Bool) (s : State),
    let res := loadRom name data ok s
    (s.host.control ≠ .idle → s.host.control.live = false → res = (.rom .error, s)) ∧
    (s.host.control = .idle ∨ s.host.control.live = true →
      (data = none → res = (.rom .fileNotFound, s)) ∧
      ∀ d, data = some d →
        let byte (i : Nat) : Nat := (d.getD i 0).toNat
        let flag (k : Nat) : Bool := decide (byte 6 / 2 ^ k % 2 = 1)
        let trainer := if flag 2 = true then 512 else 0
        let id := byte 7 / 16 * 16 + byte 6 / 16
        let prg := 16384 * byte 4
        let chr := 8192 * byte 5
        let set := s.host.supported
        let supported := id = 0 ∨ (id = 1 ∧ set.m1 = true) ∨ (id = 2 ∧ set.m2 = true) ∨ (id = 3 ∧ set.m3 = true) ∨
          (id = 4 ∧ set.m4 = true) ∨ (id = 7 ∧ set.m7 = true)
        if d.length < 16 ∨ d.take 4 ≠ [0x4E, 0x45, 0x53, 0x1A] ∨ byte 4 = 0 ∨ d.length < 16 + trainer + prg + chr then
          res = (.rom .invalidRom, s)
        else if ¬ supported then res = (.rom .unsupportedMapper, s)
        else if ok = false then res = (.rom .error, s)
        else ∃ img, res = (.rom .success, installImage img s) ∧
          (installImage img s).image = some img ∧ (installImage img s).mach = loadedMachine img ∧
          (installImage img s).host.control = .ready ∧ img.name = name ∧ img.mapperId.toNat = id ∧
          img.prgCount.toNat = byte 4 ∧ img.chrCount.toNat = byte 5 ∧ img.vertical = flag 0 ∧ img.battery = flag 1 ∧
          img.fourScreen = flag 3 ∧ (img.trainer = none ↔ flag 2 = false) ∧
          (∀ m, img.trainer = some m → ∀ i < 512, Cells.read m i = d.getD (16 + i) 0) ∧
          (∀ i < prg, Cells.read img.prgRom i = d.getD (16 + trainer + i) 0) ∧
          ∀ i < chr, Cells.read img.chrRom i = d.getD (16 + trainer + prg + i) 0)) ∧
  (∀ (data : List Byte) (s : State), let res := loadBlob data s
    (s.image = none → res = (.bool false, s)) ∧
    ∀ img, s.image = some img →
      let header := 20 ≤ data.length ∧ data.take 4 = [0x4E, 0x43, 0x53, 0x53] ∧ fieldAt data 4 2 = 1 ∧
        fieldAt data 6 2 = 0 ∧ fieldAt data 12 4 + 20 = data.length ∧ fieldAt data 8 4 = (compatTag img).toNat
      (¬ header → res = (.bool false, s)) ∧
      (header → readBody img s.mach data = none →
        res = (.bool false, { s with host := { s.host with control := .error } })) ∧
      (∀ m, header → readBody img s.mach data = some m →
        res = (.bool true, { s with mach := m, host := { s.host with audio := [] } })) ∧
      (fieldAt data 16 4 ≠ (crc32 (data.drop 20)).toNat → readBody img s.mach data = none))

/-- O58. Control operations act only in the states that accept them, and are no-ops elsewhere (64_frame_driver_io.md
R908, R926, R927, R928, R929, R930). (The failure values that R929 does not list, getState's and getFrameBuffer's
among them, and the unit results of the operations without a result type are log entry 14; the model's step itself is
not gated by the control state, log entry 16.) -/
def Obligations.ControlViolationsAreNoOps : Prop :=
  ∀ s : State, let c := s.host.control
    let enter (d : Control) : HostResult × State := (.bool true, { s with host := { s.host with control := d } })
    let no : HostResult × State := (.bool false, s)
    (c = .notInitialised → ∀ op, op ≠ .init → call op s = (op.failure, s)) ∧
    (c ≠ .notInitialised →
      call .init s = no ∧
      call .start s = (if c = .ready then enter .running else no) ∧
      call .pause s = (if c = .running then enter .paused else no) ∧
      call .resume s = (if c = .paused then enter .running else no) ∧
      call .stop s = (if c = .running ∨ c = .paused then enter .ready else no) ∧
      (∀ now, c ≠ .running → (call (.runFrame now) s).2 = s)) ∧
    (c = .idle ∨ c = .error →
      (call .reset s).2 = s ∧ (call .powerCycle s).2 = s ∧ call .quickSave s = no ∧ call .quickLoad s = no ∧
      (∀ slot, call (.saveState slot) s = no ∧ call (.loadState slot) s = no) ∧
      (∀ n, (call (.saveStateToBuffer n) s).2 = s) ∧ ∀ data, call (.loadStateFromBuffer data) s = no)

/-- O59. What power-on and a soft reset leave (70_reset_and_hazards.md R1000, R1001, 10_state.md R74, 20_memory.md
R105, 62_apu.md R751, 63_cartridge_mappers.md R884). A soft reset of any machine leaves the registers, work RAM, the
video memories, the cartridge, the mapper, the ports, the cycle count and the jam as they are, sets the reset pending
and no NMI or interrupt, clears PPUCTRL, PPUMASK, t, fine X, w and the read buffer, restarts the grid in warm-up, and
silences the APU; the model's own sprite latch is then empty (log entry 7). -/
def Obligations.PowerOnAndSoftReset : Prop :=
  (∀ (img : Image) (m : MachineState), let p := powerCycled img m
    p.regs = { a := 0, x := 0, y := 0, s := 0, pc := 0
               p := { n := false, v := false, d := false, i := true, z := false, c := false } } ∧
    p.hidden = { cycles := 0, nmiPrev := false, nmiPending := false, irqLevel := false, intDue := false, jammed := false
                 rstPending := true } ∧
    (∀ i, Cells.read p.ram i = 0 ∧ Cells.read p.vmem.oam i = 0 ∧ Cells.read p.vmem.ciram i = 0 ∧
      Cells.read p.cart.chrRam i = 0 ∧ Cells.read p.vmem.palette i = 0) ∧
    p.ppu.scanline = 0 ∧ p.ppu.dot = 0 ∧ p.ppu.warmup = true ∧ p.apu.noi.lfsr = 1 ∧ p.apu.dmc.bufEmpty = true ∧
    p.frameCount = 0 ∧ p.openBus = 0 ∧
    (img.trainer = none → p.cart.prgRam = if img.battery then m.cart.prgRam else []) ∧
    loadedMachine img = powerCycled img State.reset.mach ∧ State.reset.mach.regs = p.regs ∧
    State.reset.mach.hidden = p.hidden) ∧
  (∀ m : MachineState, let r := m.softReset
    r = { m with hidden := r.hidden, ppu := r.ppu, apu := r.apu } ∧
    r.hidden = { m.hidden with nmiPrev := false, nmiPending := false, intDue := false, rstPending := true } ∧
    r.ppu = { m.ppu with
      ctrl := 0, mask := 0, t := 0, fineX := 0, w := false, readBuffer := 0, scanline := 0, dot := 0, frameOdd := false
      warmup := true, suppressVbl := false, sprLatch := none } ∧
    r.apu.p1 = { m.apu.p1 with len := 0 } ∧ r.apu.p2 = { m.apu.p2 with len := 0 } ∧
    r.apu.tri = { m.apu.tri with len := 0 } ∧ r.apu.noi = { m.apu.noi with len := 0 } ∧
    r.apu.dmc = { m.apu.dmc with remain := 0, irq := false } ∧
    r.apu.fc = { m.apu.fc with cycle := 0, resetDelay := 0, irq := false } ∧ r.apu.rsAcc = m.apu.rsAcc ∧
    r.apu.enP1 = false ∧ r.apu.enP2 = false ∧ r.apu.enTri = false ∧ r.apu.enNoi = false)

/-- O60. What a step makes of the machine does not depend on the host side (00_scope.md R8, 10_state.md R50, 62_apu.md
R801, 64_frame_driver_io.md R921, 65_snapshot.md R980). -/
def Obligations.StepDependsOnMachineAndImageOnly : Prop :=
  ∀ s s' t t' : State, s.mach = s'.mach → s.image = s'.image → step s = .next t → step s' = .next t' →
    t.mach = t'.mach ∧ t.image = t'.image
end

