-- ==== Sys2Proof/Laws/Memory.lean ====
section
/-! SUPPORT. The laws of memories: read after write, the canonical form is kept, equal contents are equal data, lists in and
out. -/

namespace Sys2Proof

variable {w : Nat}

/-- Every address listed in `m` is at least `k`. -/
def Cells.above (m : Cells w) (k : Nat) : Prop := ∀ e ∈ m, k ≤ e.1

theorem Cells.wf_cons {k : Nat} {v : BitVec w} {rest : Cells w} :
    Cells.wf ((k, v) :: rest) = true ↔ v ≠ 0 ∧ (∀ e ∈ rest, k < e.1) ∧ Cells.wf rest = true := by
  simp [Cells.wf, and_assoc]

theorem Cells.below_cons {k n : Nat} {v : BitVec w} {rest : Cells w} :
    Cells.below ((k, v) :: rest) n = true ↔ k < n ∧ Cells.below rest n = true := by
  simp [Cells.below]

theorem Cells.read_eq_zero {m : Cells w} {a : Nat} (h : ∀ e ∈ m, e.1 ≠ a) : Cells.read m a = 0 := by
  induction m with
  | nil => rfl
  | cons e m ih =>
    obtain ⟨k, v⟩ := e
    rw [Cells.read, if_neg (h (k, v) (by simp))]
    exact ih fun e he => h e (by simp [he])

theorem Cells.read_of_above {m : Cells w} {a k : Nat} (h : ∀ e ∈ m, k < e.1) (ha : a ≤ k) : Cells.read m a = 0 :=
  Cells.read_eq_zero fun e he => by have := h e he; omega

theorem Cells.read_of_below {m : Cells w} {a n : Nat} (h : Cells.below m n = true) (ha : n ≤ a) : Cells.read m a = 0 :=
  Cells.read_eq_zero fun e he => by
    have : e.1 < n := by simpa using List.all_eq_true.mp h e he
    omega

/-- Reading the address just written. -/
theorem Cells.read_write_same {m : Cells w} (h : Cells.wf m = true) (a : Nat) (v : BitVec w) :
    Cells.read (Cells.write m a v) a = v := by
  induction m with
  | nil => simp only [Cells.write]; split <;> simp_all [Cells.read]
  | cons e m ih =>
    obtain ⟨k, x⟩ := e
    obtain ⟨_, hk, hm⟩ := Cells.wf_cons.mp h
    simp only [Cells.write]
    split
    · split
      · rename_i hak hv
        subst hv
        rw [Cells.read, if_neg (by omega)]
        exact Cells.read_of_above hk (by omega)
      · simp [Cells.read]
    · split
      · rename_i hak
        subst hak
        split
        · rename_i hv
          subst hv
          exact Cells.read_of_above hk (le_refl _)
        · simp [Cells.read]
      · rw [Cells.read, if_neg (by omega)]
        exact ih hm

/-- Reading any other address. -/
theorem Cells.read_write_ne (m : Cells w) {a b : Nat} (v : BitVec w) (h : b ≠ a) :
    Cells.read (Cells.write m a v) b = Cells.read m b := by
  induction m with
  | nil => simp only [Cells.write]; split <;> simp [Cells.read, Ne.symm h]
  | cons e m ih =>
    obtain ⟨k, x⟩ := e
    simp only [Cells.write]
    split
    · split
      · rfl
      · rw [Cells.read, if_neg (Ne.symm h)]
    · split
      · rename_i hak
        subst hak
        split <;> simp [Cells.read, Ne.symm h]
      · simp only [Cells.read, ih]

/-- Read after write, at any address of a canonical memory. -/
theorem Cells.read_write {m : Cells w} (h : Cells.wf m = true) (a b : Nat) (v : BitVec w) :
    Cells.read (Cells.write m a v) b = if b = a then v else Cells.read m b := by
  split
  · rename_i hab; subst hab; exact Cells.read_write_same h _ _
  · rename_i hab; exact Cells.read_write_ne m v hab

theorem Cells.mem_write {m : Cells w} {a : Nat} {v : BitVec w} {e : Nat × BitVec w} (h : e ∈ Cells.write m a v) :
    e = (a, v) ∨ e ∈ m := by
  induction m with
  | nil =>
    simp only [Cells.write] at h
    split at h <;> simp_all
  | cons x m ih =>
    obtain ⟨k, x⟩ := x
    simp only [Cells.write] at h
    split at h
    · split at h
      · exact .inr h
      · rcases List.mem_cons.mp h with rfl | h
        · exact .inl rfl
        · exact .inr h
    · split at h
      · split at h
        · exact .inr (by simp [h])
        · rcases List.mem_cons.mp h with rfl | h
          · exact .inl (by simp_all)
          · exact .inr (by simp [h])
      · rcases List.mem_cons.mp h with rfl | h
        · exact .inr (by simp)
        · rcases ih h with h | h
          · exact .inl h
          · exact .inr (by simp [h])

/-- A write keeps the canonical form. -/
theorem Cells.write_wf {m : Cells w} (h : Cells.wf m = true) (a : Nat) (v : BitVec w) :
    Cells.wf (Cells.write m a v) = true := by
  induction m with
  | nil => simp only [Cells.write]; split <;> simp_all [Cells.wf]
  | cons e m ih =>
    obtain ⟨k, x⟩ := e
    obtain ⟨hx, hk, hm⟩ := Cells.wf_cons.mp h
    simp only [Cells.write]
    split
    · split
      · exact h
      · rename_i hak hv
        refine Cells.wf_cons.mpr ⟨hv, fun e he => ?_, h⟩
        rcases List.mem_cons.mp he with rfl | he
        · exact hak
        · exact hak.trans (hk e he)
    · split
      · split
        · exact hm
        · rename_i hv; exact Cells.wf_cons.mpr ⟨hv, hk, hm⟩
      · refine Cells.wf_cons.mpr ⟨hx, fun e he => ?_, ih hm⟩
        rcases Cells.mem_write he with rfl | he
        · omega
        · exact hk e he

/-- A write inside the size keeps the size. -/
theorem Cells.write_below {m : Cells w} {n a : Nat} (h : Cells.below m n = true) (ha : a < n) (v : BitVec w) :
    Cells.below (Cells.write m a v) n = true := by
  refine List.all_eq_true.mpr fun e he => ?_
  rcases Cells.mem_write he with he | he
  · simpa [he] using ha
  · exact List.all_eq_true.mp h e he

/-- Canonical memories with equal contents are equal data. -/
theorem Cells.ext {m n : Cells w} (hm : Cells.wf m = true) (hn : Cells.wf n = true)
    (h : ∀ a, Cells.read m a = Cells.read n a) : m = n := by
  induction m generalizing n with
  | nil =>
    cases n with
    | nil => rfl
    | cons e n =>
      obtain ⟨k, v⟩ := e
      exact absurd (by simpa [Cells.read] using (h k).symm) (Cells.wf_cons.mp hn).1
  | cons e m ih =>
    obtain ⟨k, v⟩ := e
    obtain ⟨hv, hk, hm'⟩ := Cells.wf_cons.mp hm
    cases n with
    | nil => exact absurd (by simpa [Cells.read] using h k) hv
    | cons e n =>
      obtain ⟨l, x⟩ := e
      obtain ⟨hx, hl, hn'⟩ := Cells.wf_cons.mp hn
      have hkl : k = l := by
        by_contra hne
        rcases Nat.lt_or_gt_of_ne hne with hlt | hlt
        · have := h k
          rw [Cells.read, if_pos rfl, Cells.read, if_neg (by omega), Cells.read_of_above hl (by omega)] at this
          exact hv this
        · have := h l
          rw [Cells.read, if_neg (by omega), Cells.read_of_above hk (by omega), Cells.read, if_pos rfl] at this
          exact hx this.symm
      subst hkl
      have hvx : v = x := by simpa [Cells.read] using h k
      subst hvx
      congr 1
      refine ih hm' hn' fun a => ?_
      by_cases hak : a ≤ k
      · rw [Cells.read_of_above hk hak, Cells.read_of_above hl hak]
      · have := h a
        rwa [Cells.read, if_neg (by omega), Cells.read, if_neg (by omega)] at this

/-- Writing back what a canonical memory holds changes nothing. -/
theorem Cells.write_read {m : Cells w} (h : Cells.wf m = true) (a : Nat) : Cells.write m a (Cells.read m a) = m :=
  Cells.ext (Cells.write_wf h _ _) h fun b => by rw [Cells.read_write h]; split <;> simp_all

theorem Cells.mem_ofListFrom {vs : List (BitVec w)} {k : Nat} {e : Nat × BitVec w}
    (h : e ∈ Cells.ofListFrom k vs) : k ≤ e.1 ∧ e.1 < k + vs.length := by
  induction vs generalizing k with
  | nil => simp [Cells.ofListFrom] at h
  | cons v vs ih =>
    simp only [Cells.ofListFrom] at h
    simp only [List.length_cons]
    split at h
    · have := ih h; omega
    · rcases List.mem_cons.mp h with rfl | h
      · simp
      · have := ih h; omega

theorem Cells.ofListFrom_wf (vs : List (BitVec w)) (k : Nat) : Cells.wf (Cells.ofListFrom k vs) = true := by
  induction vs generalizing k with
  | nil => rfl
  | cons v vs ih =>
    simp only [Cells.ofListFrom]
    split
    · exact ih _
    · rename_i hv
      exact Cells.wf_cons.mpr ⟨hv, fun e he => (Cells.mem_ofListFrom he).1, ih _⟩

theorem Cells.read_ofListFrom (vs : List (BitVec w)) (k i : Nat) :
    Cells.read (Cells.ofListFrom k vs) (k + i) = vs.getD i 0 := by
  induction vs generalizing k i with
  | nil => simp [Cells.ofListFrom, Cells.read]
  | cons v vs ih =>
    simp only [Cells.ofListFrom]
    cases i with
    | zero =>
      split
      · rename_i hv
        subst hv
        simpa using Cells.read_eq_zero fun e he => by have := (Cells.mem_ofListFrom he).1; omega
      · simp [Cells.read]
    | succ i =>
      have := ih (k + 1) i
      rw [show k + 1 + i = k + (i + 1) by omega] at this
      split
      · simpa using this
      · rw [Cells.read, if_neg (by omega)]
        simpa using this

/-- The memory made of a list is canonical. -/
theorem Cells.ofList_wf (vs : List (BitVec w)) : Cells.wf (Cells.ofList vs) = true := Cells.ofListFrom_wf vs 0

/-- The memory made of a list lies below its length. -/
theorem Cells.ofList_below (vs : List (BitVec w)) : Cells.below (Cells.ofList vs) vs.length = true :=
  List.all_eq_true.mpr fun e he => by simpa using (Cells.mem_ofListFrom he).2

/-- The memory made of a list holds its elements. -/
theorem Cells.read_ofList (vs : List (BitVec w)) (i : Nat) : Cells.read (Cells.ofList vs) i = vs.getD i 0 := by
  simpa [Cells.ofList] using Cells.read_ofListFrom vs 0 i

/-- A canonical memory below `n` is made of its first `n` cells. -/
theorem Cells.ofList_toList {m : Cells w} {n : Nat} (h : Cells.wf m = true) (hb : Cells.below m n = true) :
    Cells.ofList (Cells.toList m n) = m :=
  Cells.ext (Cells.ofList_wf _) h fun a => by
    rw [Cells.read_ofList]
    by_cases ha : a < n
    · simp [Cells.toList, ha]
    · rw [Cells.read_of_below hb (by omega)]
      simp [Cells.toList, ha]

theorem Cells.length_toList (m : Cells w) (n : Nat) : (Cells.toList m n).length = n := by simp [Cells.toList]

end Sys2Proof
end

