-- ==== Sys2Proof/Laws/State.lean ====
section
/-! SUPPORT. One lemma per field per update of State, true by unfolding, so that no proof unfolds a record update. -/

namespace Sys2Proof.Machine

/-! ### `updateRegs` -/

@[simp] theorem updateRegs_regs (f : Regs → Regs) (s : State) : (updateRegs f s).mach.regs = f s.mach.regs := rfl
@[simp] theorem updateRegs_hidden (f : Regs → Regs) (s : State) : (updateRegs f s).mach.hidden = s.mach.hidden := rfl
@[simp] theorem updateRegs_ram (f : Regs → Regs) (s : State) : (updateRegs f s).mach.ram = s.mach.ram := rfl
@[simp] theorem updateRegs_openBus (f : Regs → Regs) (s : State) :
    (updateRegs f s).mach.openBus = s.mach.openBus := rfl
@[simp] theorem updateRegs_dmaPage (f : Regs → Regs) (s : State) :
    (updateRegs f s).mach.dmaPage = s.mach.dmaPage := rfl
@[simp] theorem updateRegs_dmaReq (f : Regs → Regs) (s : State) : (updateRegs f s).mach.dmaReq = s.mach.dmaReq := rfl
@[simp] theorem updateRegs_ppu (f : Regs → Regs) (s : State) : (updateRegs f s).mach.ppu = s.mach.ppu := rfl
@[simp] theorem updateRegs_vmem (f : Regs → Regs) (s : State) : (updateRegs f s).mach.vmem = s.mach.vmem := rfl
@[simp] theorem updateRegs_apu (f : Regs → Regs) (s : State) : (updateRegs f s).mach.apu = s.mach.apu := rfl
@[simp] theorem updateRegs_cart (f : Regs → Regs) (s : State) : (updateRegs f s).mach.cart = s.mach.cart := rfl
@[simp] theorem updateRegs_mapper (f : Regs → Regs) (s : State) : (updateRegs f s).mach.mapper = s.mach.mapper := rfl
@[simp] theorem updateRegs_ports (f : Regs → Regs) (s : State) : (updateRegs f s).mach.ports = s.mach.ports := rfl
@[simp] theorem updateRegs_frameCount (f : Regs → Regs) (s : State) :
    (updateRegs f s).mach.frameCount = s.mach.frameCount := rfl
@[simp] theorem updateRegs_frameDone (f : Regs → Regs) (s : State) :
    (updateRegs f s).mach.frameDone = s.mach.frameDone := rfl
@[simp] theorem updateRegs_image (f : Regs → Regs) (s : State) : (updateRegs f s).image = s.image := rfl
@[simp] theorem updateRegs_host (f : Regs → Regs) (s : State) : (updateRegs f s).host = s.host := rfl
@[simp] theorem updateRegs_ppuWorld (f : Regs → Regs) (s : State) : (updateRegs f s).ppuWorld = s.ppuWorld := rfl

/-! ### `updateHidden` -/

@[simp] theorem updateHidden_regs (f : Hidden → Hidden) (s : State) : (updateHidden f s).mach.regs = s.mach.regs := rfl
@[simp] theorem updateHidden_hidden (f : Hidden → Hidden) (s : State) :
    (updateHidden f s).mach.hidden = f s.mach.hidden := rfl
@[simp] theorem updateHidden_ram (f : Hidden → Hidden) (s : State) : (updateHidden f s).mach.ram = s.mach.ram := rfl
@[simp] theorem updateHidden_openBus (f : Hidden → Hidden) (s : State) :
    (updateHidden f s).mach.openBus = s.mach.openBus := rfl
@[simp] theorem updateHidden_dmaPage (f : Hidden → Hidden) (s : State) :
    (updateHidden f s).mach.dmaPage = s.mach.dmaPage := rfl
@[simp] theorem updateHidden_dmaReq (f : Hidden → Hidden) (s : State) :
    (updateHidden f s).mach.dmaReq = s.mach.dmaReq := rfl
@[simp] theorem updateHidden_ppu (f : Hidden → Hidden) (s : State) : (updateHidden f s).mach.ppu = s.mach.ppu := rfl
@[simp] theorem updateHidden_vmem (f : Hidden → Hidden) (s : State) : (updateHidden f s).mach.vmem = s.mach.vmem := rfl
@[simp] theorem updateHidden_apu (f : Hidden → Hidden) (s : State) : (updateHidden f s).mach.apu = s.mach.apu := rfl
@[simp] theorem updateHidden_cart (f : Hidden → Hidden) (s : State) : (updateHidden f s).mach.cart = s.mach.cart := rfl
@[simp] theorem updateHidden_mapper (f : Hidden → Hidden) (s : State) :
    (updateHidden f s).mach.mapper = s.mach.mapper := rfl
@[simp] theorem updateHidden_ports (f : Hidden → Hidden) (s : State) :
    (updateHidden f s).mach.ports = s.mach.ports := rfl
@[simp] theorem updateHidden_frameCount (f : Hidden → Hidden) (s : State) :
    (updateHidden f s).mach.frameCount = s.mach.frameCount := rfl
@[simp] theorem updateHidden_frameDone (f : Hidden → Hidden) (s : State) :
    (updateHidden f s).mach.frameDone = s.mach.frameDone := rfl
@[simp] theorem updateHidden_image (f : Hidden → Hidden) (s : State) : (updateHidden f s).image = s.image := rfl
@[simp] theorem updateHidden_host (f : Hidden → Hidden) (s : State) : (updateHidden f s).host = s.host := rfl

/-! ### `clearDmaReq` -/

@[simp] theorem clearDmaReq_regs (s : State) : (clearDmaReq s).mach.regs = s.mach.regs := rfl
@[simp] theorem clearDmaReq_hidden (s : State) : (clearDmaReq s).mach.hidden = s.mach.hidden := rfl
@[simp] theorem clearDmaReq_ram (s : State) : (clearDmaReq s).mach.ram = s.mach.ram := rfl
@[simp] theorem clearDmaReq_openBus (s : State) : (clearDmaReq s).mach.openBus = s.mach.openBus := rfl
@[simp] theorem clearDmaReq_dmaPage (s : State) : (clearDmaReq s).mach.dmaPage = s.mach.dmaPage := rfl
@[simp] theorem clearDmaReq_dmaReq (s : State) : (clearDmaReq s).mach.dmaReq = false := rfl
@[simp] theorem clearDmaReq_ppu (s : State) : (clearDmaReq s).mach.ppu = s.mach.ppu := rfl
@[simp] theorem clearDmaReq_vmem (s : State) : (clearDmaReq s).mach.vmem = s.mach.vmem := rfl
@[simp] theorem clearDmaReq_apu (s : State) : (clearDmaReq s).mach.apu = s.mach.apu := rfl
@[simp] theorem clearDmaReq_cart (s : State) : (clearDmaReq s).mach.cart = s.mach.cart := rfl
@[simp] theorem clearDmaReq_mapper (s : State) : (clearDmaReq s).mach.mapper = s.mach.mapper := rfl
@[simp] theorem clearDmaReq_ports (s : State) : (clearDmaReq s).mach.ports = s.mach.ports := rfl
@[simp] theorem clearDmaReq_frameCount (s : State) : (clearDmaReq s).mach.frameCount = s.mach.frameCount := rfl
@[simp] theorem clearDmaReq_frameDone (s : State) : (clearDmaReq s).mach.frameDone = s.mach.frameDone := rfl
@[simp] theorem clearDmaReq_image (s : State) : (clearDmaReq s).image = s.image := rfl
@[simp] theorem clearDmaReq_host (s : State) : (clearDmaReq s).host = s.host := rfl
@[simp] theorem clearDmaReq_ppuWorld (s : State) : (clearDmaReq s).ppuWorld = s.ppuWorld := rfl

/-! ### `dmcFetched` -/

@[simp] theorem dmcFetched_regs (b : Byte) (s : State) : (dmcFetched b s).mach.regs = s.mach.regs := rfl
@[simp] theorem dmcFetched_hidden (b : Byte) (s : State) : (dmcFetched b s).mach.hidden = s.mach.hidden := rfl
@[simp] theorem dmcFetched_ram (b : Byte) (s : State) : (dmcFetched b s).mach.ram = s.mach.ram := rfl
@[simp] theorem dmcFetched_openBus (b : Byte) (s : State) : (dmcFetched b s).mach.openBus = s.mach.openBus := rfl
@[simp] theorem dmcFetched_dmaPage (b : Byte) (s : State) : (dmcFetched b s).mach.dmaPage = s.mach.dmaPage := rfl
@[simp] theorem dmcFetched_dmaReq (b : Byte) (s : State) : (dmcFetched b s).mach.dmaReq = s.mach.dmaReq := rfl
@[simp] theorem dmcFetched_ppu (b : Byte) (s : State) : (dmcFetched b s).mach.ppu = s.mach.ppu := rfl
@[simp] theorem dmcFetched_vmem (b : Byte) (s : State) : (dmcFetched b s).mach.vmem = s.mach.vmem := rfl
@[simp] theorem dmcFetched_apu (b : Byte) (s : State) :
    (dmcFetched b s).mach.apu = { s.mach.apu with dmc := s.mach.apu.dmc.fetched b } := rfl
@[simp] theorem dmcFetched_cart (b : Byte) (s : State) : (dmcFetched b s).mach.cart = s.mach.cart := rfl
@[simp] theorem dmcFetched_mapper (b : Byte) (s : State) : (dmcFetched b s).mach.mapper = s.mach.mapper := rfl
@[simp] theorem dmcFetched_ports (b : Byte) (s : State) : (dmcFetched b s).mach.ports = s.mach.ports := rfl
@[simp] theorem dmcFetched_frameCount (b : Byte) (s : State) :
    (dmcFetched b s).mach.frameCount = s.mach.frameCount := rfl
@[simp] theorem dmcFetched_frameDone (b : Byte) (s : State) : (dmcFetched b s).mach.frameDone = s.mach.frameDone := rfl
@[simp] theorem dmcFetched_image (b : Byte) (s : State) : (dmcFetched b s).image = s.image := rfl
@[simp] theorem dmcFetched_host (b : Byte) (s : State) : (dmcFetched b s).host = s.host := rfl
@[simp] theorem dmcFetched_ppuWorld (b : Byte) (s : State) : (dmcFetched b s).ppuWorld = s.ppuWorld := rfl

/-! ### `setPc` -/

@[simp] theorem setPc_regs (a : Word) (s : State) : (setPc a s).mach.regs = { s.mach.regs with pc := a } := rfl
@[simp] theorem setPc_hidden (a : Word) (s : State) : (setPc a s).mach.hidden = s.mach.hidden := rfl
@[simp] theorem setPc_ram (a : Word) (s : State) : (setPc a s).mach.ram = s.mach.ram := rfl
@[simp] theorem setPc_openBus (a : Word) (s : State) : (setPc a s).mach.openBus = s.mach.openBus := rfl
@[simp] theorem setPc_dmaPage (a : Word) (s : State) : (setPc a s).mach.dmaPage = s.mach.dmaPage := rfl
@[simp] theorem setPc_dmaReq (a : Word) (s : State) : (setPc a s).mach.dmaReq = s.mach.dmaReq := rfl
@[simp] theorem setPc_ppu (a : Word) (s : State) : (setPc a s).mach.ppu = s.mach.ppu := rfl
@[simp] theorem setPc_vmem (a : Word) (s : State) : (setPc a s).mach.vmem = s.mach.vmem := rfl
@[simp] theorem setPc_apu (a : Word) (s : State) : (setPc a s).mach.apu = s.mach.apu := rfl
@[simp] theorem setPc_cart (a : Word) (s : State) : (setPc a s).mach.cart = s.mach.cart := rfl
@[simp] theorem setPc_mapper (a : Word) (s : State) : (setPc a s).mach.mapper = s.mach.mapper := rfl
@[simp] theorem setPc_ports (a : Word) (s : State) : (setPc a s).mach.ports = s.mach.ports := rfl
@[simp] theorem setPc_frameCount (a : Word) (s : State) : (setPc a s).mach.frameCount = s.mach.frameCount := rfl
@[simp] theorem setPc_frameDone (a : Word) (s : State) : (setPc a s).mach.frameDone = s.mach.frameDone := rfl
@[simp] theorem setPc_image (a : Word) (s : State) : (setPc a s).image = s.image := rfl
@[simp] theorem setPc_host (a : Word) (s : State) : (setPc a s).host = s.host := rfl
@[simp] theorem setPc_ppuWorld (a : Word) (s : State) : (setPc a s).ppuWorld = s.ppuWorld := rfl

/-! ### `incPc` -/

@[simp] theorem incPc_regs (s : State) : (incPc s).mach.regs = { s.mach.regs with pc := s.mach.regs.pc + 1 } := rfl
@[simp] theorem incPc_hidden (s : State) : (incPc s).mach.hidden = s.mach.hidden := rfl
@[simp] theorem incPc_ram (s : State) : (incPc s).mach.ram = s.mach.ram := rfl
@[simp] theorem incPc_openBus (s : State) : (incPc s).mach.openBus = s.mach.openBus := rfl
@[simp] theorem incPc_dmaPage (s : State) : (incPc s).mach.dmaPage = s.mach.dmaPage := rfl
@[simp] theorem incPc_dmaReq (s : State) : (incPc s).mach.dmaReq = s.mach.dmaReq := rfl
@[simp] theorem incPc_ppu (s : State) : (incPc s).mach.ppu = s.mach.ppu := rfl
@[simp] theorem incPc_vmem (s : State) : (incPc s).mach.vmem = s.mach.vmem := rfl
@[simp] theorem incPc_apu (s : State) : (incPc s).mach.apu = s.mach.apu := rfl
@[simp] theorem incPc_cart (s : State) : (incPc s).mach.cart = s.mach.cart := rfl
@[simp] theorem incPc_mapper (s : State) : (incPc s).mach.mapper = s.mach.mapper := rfl
@[simp] theorem incPc_ports (s : State) : (incPc s).mach.ports = s.mach.ports := rfl
@[simp] theorem incPc_frameCount (s : State) : (incPc s).mach.frameCount = s.mach.frameCount := rfl
@[simp] theorem incPc_frameDone (s : State) : (incPc s).mach.frameDone = s.mach.frameDone := rfl
@[simp] theorem incPc_image (s : State) : (incPc s).image = s.image := rfl
@[simp] theorem incPc_host (s : State) : (incPc s).host = s.host := rfl
@[simp] theorem incPc_ppuWorld (s : State) : (incPc s).ppuWorld = s.ppuWorld := rfl

/-! ### `setS` -/

@[simp] theorem setS_regs (v : Byte) (s : State) : (setS v s).mach.regs = { s.mach.regs with s := v } := rfl
@[simp] theorem setS_hidden (v : Byte) (s : State) : (setS v s).mach.hidden = s.mach.hidden := rfl
@[simp] theorem setS_ram (v : Byte) (s : State) : (setS v s).mach.ram = s.mach.ram := rfl
@[simp] theorem setS_openBus (v : Byte) (s : State) : (setS v s).mach.openBus = s.mach.openBus := rfl
@[simp] theorem setS_dmaPage (v : Byte) (s : State) : (setS v s).mach.dmaPage = s.mach.dmaPage := rfl
@[simp] theorem setS_dmaReq (v : Byte) (s : State) : (setS v s).mach.dmaReq = s.mach.dmaReq := rfl
@[simp] theorem setS_ppu (v : Byte) (s : State) : (setS v s).mach.ppu = s.mach.ppu := rfl
@[simp] theorem setS_vmem (v : Byte) (s : State) : (setS v s).mach.vmem = s.mach.vmem := rfl
@[simp] theorem setS_apu (v : Byte) (s : State) : (setS v s).mach.apu = s.mach.apu := rfl
@[simp] theorem setS_cart (v : Byte) (s : State) : (setS v s).mach.cart = s.mach.cart := rfl
@[simp] theorem setS_mapper (v : Byte) (s : State) : (setS v s).mach.mapper = s.mach.mapper := rfl
@[simp] theorem setS_ports (v : Byte) (s : State) : (setS v s).mach.ports = s.mach.ports := rfl
@[simp] theorem setS_frameCount (v : Byte) (s : State) : (setS v s).mach.frameCount = s.mach.frameCount := rfl
@[simp] theorem setS_frameDone (v : Byte) (s : State) : (setS v s).mach.frameDone = s.mach.frameDone := rfl
@[simp] theorem setS_image (v : Byte) (s : State) : (setS v s).image = s.image := rfl
@[simp] theorem setS_host (v : Byte) (s : State) : (setS v s).host = s.host := rfl
@[simp] theorem setS_ppuWorld (v : Byte) (s : State) : (setS v s).ppuWorld = s.ppuWorld := rfl

/-! ### `updateFlags` -/

@[simp] theorem updateFlags_regs (f : Flags → Flags) (s : State) :
    (updateFlags f s).mach.regs = { s.mach.regs with p := f s.mach.regs.p } := rfl
@[simp] theorem updateFlags_hidden (f : Flags → Flags) (s : State) :
    (updateFlags f s).mach.hidden = s.mach.hidden := rfl
@[simp] theorem updateFlags_ram (f : Flags → Flags) (s : State) : (updateFlags f s).mach.ram = s.mach.ram := rfl
@[simp] theorem updateFlags_openBus (f : Flags → Flags) (s : State) :
    (updateFlags f s).mach.openBus = s.mach.openBus := rfl
@[simp] theorem updateFlags_dmaPage (f : Flags → Flags) (s : State) :
    (updateFlags f s).mach.dmaPage = s.mach.dmaPage := rfl
@[simp] theorem updateFlags_dmaReq (f : Flags → Flags) (s : State) :
    (updateFlags f s).mach.dmaReq = s.mach.dmaReq := rfl
@[simp] theorem updateFlags_ppu (f : Flags → Flags) (s : State) : (updateFlags f s).mach.ppu = s.mach.ppu := rfl
@[simp] theorem updateFlags_vmem (f : Flags → Flags) (s : State) : (updateFlags f s).mach.vmem = s.mach.vmem := rfl
@[simp] theorem updateFlags_apu (f : Flags → Flags) (s : State) : (updateFlags f s).mach.apu = s.mach.apu := rfl
@[simp] theorem updateFlags_cart (f : Flags → Flags) (s : State) : (updateFlags f s).mach.cart = s.mach.cart := rfl
@[simp] theorem updateFlags_mapper (f : Flags → Flags) (s : State) :
    (updateFlags f s).mach.mapper = s.mach.mapper := rfl
@[simp] theorem updateFlags_ports (f : Flags → Flags) (s : State) : (updateFlags f s).mach.ports = s.mach.ports := rfl
@[simp] theorem updateFlags_frameCount (f : Flags → Flags) (s : State) :
    (updateFlags f s).mach.frameCount = s.mach.frameCount := rfl
@[simp] theorem updateFlags_frameDone (f : Flags → Flags) (s : State) :
    (updateFlags f s).mach.frameDone = s.mach.frameDone := rfl
@[simp] theorem updateFlags_image (f : Flags → Flags) (s : State) : (updateFlags f s).image = s.image := rfl
@[simp] theorem updateFlags_host (f : Flags → Flags) (s : State) : (updateFlags f s).host = s.host := rfl
@[simp] theorem updateFlags_ppuWorld (f : Flags → Flags) (s : State) : (updateFlags f s).ppuWorld = s.ppuWorld := rfl

/-! ### `poll` -/

@[simp] theorem poll_regs (s : State) : (poll s).mach.regs = s.mach.regs := rfl
@[simp] theorem poll_hidden (s : State) : (poll s).mach.hidden = { s.mach.hidden with intDue := pollResult s } := rfl
@[simp] theorem poll_ram (s : State) : (poll s).mach.ram = s.mach.ram := rfl
@[simp] theorem poll_openBus (s : State) : (poll s).mach.openBus = s.mach.openBus := rfl
@[simp] theorem poll_dmaPage (s : State) : (poll s).mach.dmaPage = s.mach.dmaPage := rfl
@[simp] theorem poll_dmaReq (s : State) : (poll s).mach.dmaReq = s.mach.dmaReq := rfl
@[simp] theorem poll_ppu (s : State) : (poll s).mach.ppu = s.mach.ppu := rfl
@[simp] theorem poll_vmem (s : State) : (poll s).mach.vmem = s.mach.vmem := rfl
@[simp] theorem poll_apu (s : State) : (poll s).mach.apu = s.mach.apu := rfl
@[simp] theorem poll_cart (s : State) : (poll s).mach.cart = s.mach.cart := rfl
@[simp] theorem poll_mapper (s : State) : (poll s).mach.mapper = s.mach.mapper := rfl
@[simp] theorem poll_ports (s : State) : (poll s).mach.ports = s.mach.ports := rfl
@[simp] theorem poll_frameCount (s : State) : (poll s).mach.frameCount = s.mach.frameCount := rfl
@[simp] theorem poll_frameDone (s : State) : (poll s).mach.frameDone = s.mach.frameDone := rfl
@[simp] theorem poll_image (s : State) : (poll s).image = s.image := rfl
@[simp] theorem poll_host (s : State) : (poll s).host = s.host := rfl
@[simp] theorem poll_ppuWorld (s : State) : (poll s).ppuWorld = s.ppuWorld := rfl

/-! ### `halt` -/

@[simp] theorem halt_regs (s : State) : (halt s).mach.regs = s.mach.regs := rfl
@[simp] theorem halt_hidden (s : State) :
    (halt s).mach.hidden = { s.mach.hidden with jammed := true, intDue := false } := rfl
@[simp] theorem halt_ram (s : State) : (halt s).mach.ram = s.mach.ram := rfl
@[simp] theorem halt_openBus (s : State) : (halt s).mach.openBus = s.mach.openBus := rfl
@[simp] theorem halt_dmaPage (s : State) : (halt s).mach.dmaPage = s.mach.dmaPage := rfl
@[simp] theorem halt_dmaReq (s : State) : (halt s).mach.dmaReq = s.mach.dmaReq := rfl
@[simp] theorem halt_ppu (s : State) : (halt s).mach.ppu = s.mach.ppu := rfl
@[simp] theorem halt_vmem (s : State) : (halt s).mach.vmem = s.mach.vmem := rfl
@[simp] theorem halt_apu (s : State) : (halt s).mach.apu = s.mach.apu := rfl
@[simp] theorem halt_cart (s : State) : (halt s).mach.cart = s.mach.cart := rfl
@[simp] theorem halt_mapper (s : State) : (halt s).mach.mapper = s.mach.mapper := rfl
@[simp] theorem halt_ports (s : State) : (halt s).mach.ports = s.mach.ports := rfl
@[simp] theorem halt_frameCount (s : State) : (halt s).mach.frameCount = s.mach.frameCount := rfl
@[simp] theorem halt_frameDone (s : State) : (halt s).mach.frameDone = s.mach.frameDone := rfl
@[simp] theorem halt_image (s : State) : (halt s).image = s.image := rfl
@[simp] theorem halt_host (s : State) : (halt s).host = s.host := rfl
@[simp] theorem halt_ppuWorld (s : State) : (halt s).ppuWorld = s.ppuWorld := rfl

end Sys2Proof.Machine
end

