-- ==== Sys2Proof/Laws/Bus.lean ====
section
/-! SUPPORT. The frame of one bus access and of the rest of a cycle: which fields a read, a write and `endCycle` leave alone, and
what happens to the fields they change. -/

namespace Sys2Proof.Machine

/-! ## The rest of a cycle -/

@[simp] theorem endCycle_regs (s : State) : (endCycle s).mach.regs = s.mach.regs := (rfl)
@[simp] theorem endCycle_ram (s : State) : (endCycle s).mach.ram = s.mach.ram := (rfl)
@[simp] theorem endCycle_openBus (s : State) : (endCycle s).mach.openBus = s.mach.openBus := (rfl)
@[simp] theorem endCycle_dmaPage (s : State) : (endCycle s).mach.dmaPage = s.mach.dmaPage := (rfl)
@[simp] theorem endCycle_dmaReq (s : State) : (endCycle s).mach.dmaReq = s.mach.dmaReq := (rfl)
@[simp] theorem endCycle_vmem (s : State) : (endCycle s).mach.vmem = s.mach.vmem := (rfl)
@[simp] theorem endCycle_cart (s : State) : (endCycle s).mach.cart = s.mach.cart := (rfl)
@[simp] theorem endCycle_ports (s : State) : (endCycle s).mach.ports = s.mach.ports := (rfl)
@[simp] theorem endCycle_frameCount (s : State) : (endCycle s).mach.frameCount = s.mach.frameCount := (rfl)
@[simp] theorem endCycle_image (s : State) : (endCycle s).image = s.image := (rfl)
@[simp] theorem endCycle_intDue (s : State) : (endCycle s).mach.hidden.intDue = s.mach.hidden.intDue := (rfl)
@[simp] theorem endCycle_jammed (s : State) : (endCycle s).mach.hidden.jammed = s.mach.hidden.jammed := (rfl)
@[simp] theorem endCycle_rstPending (s : State) : (endCycle s).mach.hidden.rstPending = s.mach.hidden.rstPending := (rfl)
@[simp] theorem endCycle_cycles (s : State) : (endCycle s).mach.hidden.cycles = s.mach.hidden.cycles + 1 := (rfl)

theorem endCycle_host (s : State) : (endCycle s).host =
    { s.host with frameBuffer := (endCycle s).host.frameBuffer, audio := (endCycle s).host.audio } := rfl

/-! ## Reads -/

theorem readRegion_regs (r : Region) (a : Word) (s : State) :
    (readRegion r a s).2.mach.regs = s.mach.regs := by cases r <;> rfl
@[simp] theorem busRead_regs (a : Word) (s : State) : (busRead a s).2.mach.regs = s.mach.regs :=
  readRegion_regs _ _ _

theorem readRegion_hidden (r : Region) (a : Word) (s : State) :
    (readRegion r a s).2.mach.hidden = s.mach.hidden := by cases r <;> rfl
@[simp] theorem busRead_hidden (a : Word) (s : State) : (busRead a s).2.mach.hidden = s.mach.hidden :=
  readRegion_hidden _ _ _

theorem readRegion_ram (r : Region) (a : Word) (s : State) :
    (readRegion r a s).2.mach.ram = s.mach.ram := by cases r <;> rfl
@[simp] theorem busRead_ram (a : Word) (s : State) : (busRead a s).2.mach.ram = s.mach.ram :=
  readRegion_ram _ _ _

theorem readRegion_dmaPage (r : Region) (a : Word) (s : State) :
    (readRegion r a s).2.mach.dmaPage = s.mach.dmaPage := by cases r <;> rfl
@[simp] theorem busRead_dmaPage (a : Word) (s : State) : (busRead a s).2.mach.dmaPage = s.mach.dmaPage :=
  readRegion_dmaPage _ _ _

theorem readRegion_dmaReq (r : Region) (a : Word) (s : State) :
    (readRegion r a s).2.mach.dmaReq = s.mach.dmaReq := by cases r <;> rfl
@[simp] theorem busRead_dmaReq (a : Word) (s : State) : (busRead a s).2.mach.dmaReq = s.mach.dmaReq :=
  readRegion_dmaReq _ _ _

theorem readRegion_vmem (r : Region) (a : Word) (s : State) :
    (readRegion r a s).2.mach.vmem = s.mach.vmem := by cases r <;> rfl
@[simp] theorem busRead_vmem (a : Word) (s : State) : (busRead a s).2.mach.vmem = s.mach.vmem :=
  readRegion_vmem _ _ _

theorem readRegion_cart (r : Region) (a : Word) (s : State) :
    (readRegion r a s).2.mach.cart = s.mach.cart := by cases r <;> rfl
@[simp] theorem busRead_cart (a : Word) (s : State) : (busRead a s).2.mach.cart = s.mach.cart :=
  readRegion_cart _ _ _

theorem readRegion_frameCount (r : Region) (a : Word) (s : State) :
    (readRegion r a s).2.mach.frameCount = s.mach.frameCount := by cases r <;> rfl
@[simp] theorem busRead_frameCount (a : Word) (s : State) : (busRead a s).2.mach.frameCount = s.mach.frameCount :=
  readRegion_frameCount _ _ _

theorem readRegion_frameDone (r : Region) (a : Word) (s : State) :
    (readRegion r a s).2.mach.frameDone = s.mach.frameDone := by cases r <;> rfl
@[simp] theorem busRead_frameDone (a : Word) (s : State) : (busRead a s).2.mach.frameDone = s.mach.frameDone :=
  readRegion_frameDone _ _ _

theorem readRegion_image (r : Region) (a : Word) (s : State) :
    (readRegion r a s).2.image = s.image := by cases r <;> rfl
@[simp] theorem busRead_image (a : Word) (s : State) : (busRead a s).2.image = s.image :=
  readRegion_image _ _ _

theorem readRegion_host (r : Region) (a : Word) (s : State) :
    (readRegion r a s).2.host = s.host := by cases r <;> rfl
@[simp] theorem busRead_host (a : Word) (s : State) : (busRead a s).2.host = s.host :=
  readRegion_host _ _ _

theorem readRegion_latched0 (r : Region) (a : Word) (s : State) :
    (readRegion r a s).2.mach.ports.latched0 = s.mach.ports.latched0 := by cases r <;> rfl
@[simp] theorem busRead_latched0 (a : Word) (s : State) : (busRead a s).2.mach.ports.latched0 = s.mach.ports.latched0 :=
  readRegion_latched0 _ _ _

theorem readRegion_latched1 (r : Region) (a : Word) (s : State) :
    (readRegion r a s).2.mach.ports.latched1 = s.mach.ports.latched1 := by cases r <;> rfl
@[simp] theorem busRead_latched1 (a : Word) (s : State) : (busRead a s).2.mach.ports.latched1 = s.mach.ports.latched1 :=
  readRegion_latched1 _ _ _

theorem readRegion_strobe (r : Region) (a : Word) (s : State) :
    (readRegion r a s).2.mach.ports.strobe = s.mach.ports.strobe := by cases r <;> rfl
@[simp] theorem busRead_strobe (a : Word) (s : State) : (busRead a s).2.mach.ports.strobe = s.mach.ports.strobe :=
  readRegion_strobe _ _ _

/-! ## Writes -/

theorem writeRegion_regs (r : Region) (a : Word) (v : Byte) (s : State) :
    (writeRegion r a v s).mach.regs = s.mach.regs := by cases r <;> rfl
@[simp] theorem busWrite_regs (a : Word) (v : Byte) (s : State) : (busWrite a v s).mach.regs = s.mach.regs :=
  writeRegion_regs _ _ _ _

theorem writeRegion_hidden (r : Region) (a : Word) (v : Byte) (s : State) :
    (writeRegion r a v s).mach.hidden = s.mach.hidden := by cases r <;> rfl
@[simp] theorem busWrite_hidden (a : Word) (v : Byte) (s : State) : (busWrite a v s).mach.hidden = s.mach.hidden :=
  writeRegion_hidden _ _ _ _

theorem writeRegion_frameCount (r : Region) (a : Word) (v : Byte) (s : State) :
    (writeRegion r a v s).mach.frameCount = s.mach.frameCount := by cases r <;> rfl
@[simp] theorem busWrite_frameCount (a : Word) (v : Byte) (s : State) : (busWrite a v s).mach.frameCount = s.mach.frameCount :=
  writeRegion_frameCount _ _ _ _

theorem writeRegion_frameDone (r : Region) (a : Word) (v : Byte) (s : State) :
    (writeRegion r a v s).mach.frameDone = s.mach.frameDone := by cases r <;> rfl
@[simp] theorem busWrite_frameDone (a : Word) (v : Byte) (s : State) : (busWrite a v s).mach.frameDone = s.mach.frameDone :=
  writeRegion_frameDone _ _ _ _

theorem writeRegion_image (r : Region) (a : Word) (v : Byte) (s : State) :
    (writeRegion r a v s).image = s.image := by cases r <;> rfl
@[simp] theorem busWrite_image (a : Word) (v : Byte) (s : State) : (busWrite a v s).image = s.image :=
  writeRegion_image _ _ _ _

theorem writeRegion_host (r : Region) (a : Word) (v : Byte) (s : State) :
    (writeRegion r a v s).host = s.host := by cases r <;> rfl
@[simp] theorem busWrite_host (a : Word) (v : Byte) (s : State) : (busWrite a v s).host = s.host :=
  writeRegion_host _ _ _ _

theorem writeRegion_openBus (r : Region) (a : Word) (v : Byte) (s : State) :
    (writeRegion r a v s).mach.openBus = v := by cases r <;> rfl
@[simp] theorem busWrite_openBus (a : Word) (v : Byte) (s : State) : (busWrite a v s).mach.openBus = v :=
  writeRegion_openBus _ _ _ _

theorem writeRegion_latched0 (r : Region) (a : Word) (v : Byte) (s : State) :
    (writeRegion r a v s).mach.ports.latched0 = s.mach.ports.latched0 := by cases r <;> rfl
@[simp] theorem busWrite_latched0 (a : Word) (v : Byte) (s : State) : (busWrite a v s).mach.ports.latched0 = s.mach.ports.latched0 :=
  writeRegion_latched0 _ _ _ _

theorem writeRegion_latched1 (r : Region) (a : Word) (v : Byte) (s : State) :
    (writeRegion r a v s).mach.ports.latched1 = s.mach.ports.latched1 := by cases r <;> rfl
@[simp] theorem busWrite_latched1 (a : Word) (v : Byte) (s : State) : (busWrite a v s).mach.ports.latched1 = s.mach.ports.latched1 :=
  writeRegion_latched1 _ _ _ _

/-- A write changes work RAM only where it is mapped. -/
theorem busWrite_ram (a : Word) (v : Byte) (s : State) : (busWrite a v s).mach.ram =
    match region a with
    | .workRam i => Cells.write s.mach.ram i v
    | _ => s.mach.ram := by
  unfold busWrite; cases region a <;> rfl

theorem region_oamDma {a : Word} : region a = .oamDma ↔ a = 0x4014 := by
  refine ⟨fun h => ?_, fun h => h ▸ by decide⟩
  unfold region at h
  repeat' split at h
  all_goals first | assumption | cases h

/-- Which rows of the map the cartridge has. -/
theorem region_cartridge {a : Word} : region a = .cartridge ↔ 0x4020 ≤ a := by
  unfold region
  constructor
  · intro h
    repeat' split at h
    all_goals first | bv_omega | cases h
  · intro h
    have h1 : ¬ a < 0x2000 := by bv_omega
    have h2 : ¬ a < 0x4000 := by bv_omega
    have h3 : ¬ a < 0x4014 := by bv_omega
    have h4 : ¬ a = 0x4014 := by bv_omega
    have h5 : ¬ a = 0x4015 := by bv_omega
    have h6 : ¬ a = 0x4016 := by bv_omega
    have h7 : ¬ a = 0x4017 := by bv_omega
    have h8 : ¬ a < 0x4020 := by bv_omega
    simp only [h1, h2, h3, h4, h5, h6, h7, h8, if_false]

/-- Work RAM is $0000-$1FFF, mirrored every 2048 bytes. -/
theorem region_workRam {a : Word} (h : a < 0x2000) : region a = .workRam (a.toNat % 2048) := by
  unfold region
  rw [if_pos h]
  congr 1
  rw [BitVec.toNat_and]
  exact Nat.and_two_pow_sub_one_eq_mod a.toNat 11

theorem region_workRam_lt {a : Word} {i : Nat} (h : region a = .workRam i) : a < 0x2000 ∧ i < 2048 := by
  have ha : a < 0x2000 := by
    by_contra hn
    unfold region at h
    rw [if_neg hn] at h
    repeat' split at h
    all_goals cases h
  rw [region_workRam ha] at h
  cases h
  exact ⟨ha, Nat.mod_lt _ (by omega)⟩

theorem oamDma_only {a : Word} {r : Region} (h : region a = r) (hr : r ≠ .oamDma) : a ≠ 0x4014 :=
  fun ha => hr (h ▸ region_oamDma.mpr ha)

theorem busWrite_dmaReq (a : Word) (v : Byte) (s : State) :
    (busWrite a v s).mach.dmaReq = (s.mach.dmaReq || a == 0x4014) := by
  unfold busWrite
  cases h : region a
  case oamDma =>
    rw [region_oamDma.mp h, beq_self_eq_true, Bool.or_true]
    rfl
  all_goals
    rw [beq_false_of_ne (oamDma_only h (by simp)), Bool.or_false]
    rfl

theorem busWrite_dmaPage (a : Word) (v : Byte) (s : State) :
    (busWrite a v s).mach.dmaPage = if a = 0x4014 then v else s.mach.dmaPage := by
  unfold busWrite
  cases h : region a
  case oamDma =>
    rw [if_pos (region_oamDma.mp h)]
    rfl
  all_goals
    rw [if_neg (oamDma_only h (by simp))]
    rfl

end Sys2Proof.Machine
end

