-- ==== Sys2Proof/Laws/ApuInvariant.lean ====
section
/-! SUPPORT. What the APU step, its register writes and the DMC reader keep: the ranges of the APU elements. -/

namespace Sys2Proof.Machine

/-- The ranges of the noise channel. -/
def NoiOk (n : Noise) : Prop := n.timer ≤ 2033 ∧ n.lfsr ≠ 0

/-- The ranges of the DMC. -/
structure DmcOk (d : Dmc) : Prop where
  timer  : d.timer ≤ 213
  bits   : 1 ≤ d.bits ∧ d.bits ≤ 8
  length : 1 ≤ d.length ∧ d.length ≤ 4081
  remain : d.remain ≤ 4081
  start  : 0xC000 ≤ d.startAddr ∧ d.startAddr &&& 63 = 0
  addr   : 0x8000 ≤ d.addr

theorem ApuOk.noi {a : Apu} (h : ApuOk a) : NoiOk a.noi := ⟨h.noiTimer, h.lfsr⟩

theorem ApuOk.dmc {a : Apu} (h : ApuOk a) : DmcOk a.dmc :=
  ⟨h.dmcTimer, h.dmcBits, h.dmcLength, h.dmcRemain, h.dmcStart, h.dmcAddr⟩

/-- The ranges of the frame sequencer. -/
structure FcOk (f : FrameCounter) : Prop where
  cycle : f.cycle ≤ 37286
  delay : f.resetDelay ≤ 5

theorem ApuOk.fc {a : Apu} (h : ApuOk a) : FcOk a.fc := ⟨h.fcCycle, h.resetDelay⟩

theorem ApuOk.of {a : Apu} (n : NoiOk a.noi) (d : DmcOk a.dmc) (f : FcOk a.fc)
    (r : a.rsAcc < Config.resamplerModulus) : ApuOk a :=
  ⟨n.1, n.2, d.timer, d.bits, d.length, d.remain, d.start, d.addr, f.cycle, f.delay, r⟩

theorem noiseReload_le : ∀ i, noiseReload i ≤ 2033 := by decide +revert

theorem dmcReload_le : ∀ i, dmcReload i ≤ 213 := by decide +revert

theorem lfsrNext_ne (mode : Bool) {r : BitVec 15} (h : r ≠ 0) : lfsrNext mode r ≠ 0 := by
  unfold lfsrNext
  by_cases h1 : r = 1
  · subst h1
    cases mode <;> decide
  · intro h0
    have h2 : r >>> 1 = 0 := (BitVec.or_eq_zero_iff.mp h0).1
    bv_omega

theorem noiseClock_ok {n : Noise} (ok : NoiOk n) : NoiOk n.clock := by
  unfold Noise.clock
  split
  · exact ⟨noiseReload_le _, lfsrNext_ne _ ok.2⟩
  · exact ⟨by have := ok.1; show n.timer - 1 ≤ 2033; bv_omega, ok.2⟩

theorem dmcOutput_ok {d : Dmc} (ok : DmcOk d) : DmcOk d.output := by
  unfold Dmc.output
  dsimp only
  split
  · split <;> exact { ok with bits := (by decide : 1 ≤ 8 ∧ 8 ≤ 8) }
  · rename_i h
    exact { ok with bits := by have := ok.bits; show 1 ≤ d.bits - 1 ∧ d.bits - 1 ≤ 8; omega }

theorem dmcClock_ok {d : Dmc} (ok : DmcOk d) : DmcOk d.clock := by
  unfold Dmc.clock
  split
  · exact { dmcOutput_ok ok with timer := dmcReload_le _ }
  · exact { ok with timer := by have := ok.timer; show d.timer - 1 ≤ 213; bv_omega }

theorem dmcRestart_ok {d : Dmc} (ok : DmcOk d) : DmcOk d.restart :=
  { ok with remain := ok.length.2
            addr := by have := ok.start.1; show 0x8000 ≤ d.startAddr; bv_omega }

theorem dmcFetched_ok {d : Dmc} (b : Byte) (hr : d.remain ≠ 0) (ok : DmcOk d) : DmcOk (d.fetched b) := by
  unfold Dmc.fetched
  dsimp only
  have ok' : DmcOk { d with buffer := b, bufEmpty := false, addr := if d.addr = 0xFFFF then 0x8000 else d.addr + 1,
                            remain := d.remain - 1 } :=
    { ok with
      remain := by have := ok.remain; show d.remain - 1 ≤ 4081; bv_omega
      addr := by
        have := ok.addr
        show 0x8000 ≤ if d.addr = 0xFFFF then 0x8000 else d.addr + 1
        split
        · exact BitVec.le_refl _
        · bv_omega }
  split
  · split
    · exact dmcRestart_ok ok'
    · split
      · exact { ok' with }
      · exact ok'
  · exact ok'

/-! ## The APU step -/

theorem frameCycleNext_le {c : Nat} (h : c ≤ 37286) : frameCycleNext c ≤ 37286 := by
  unfold frameCycleNext
  split <;> omega

/-- The parts that the sequencer leaves alone, and the ranges it keeps. -/
structure SeqKept (a b : Apu) : Prop where
  noiTimer : b.noi.timer = a.noi.timer
  lfsr     : b.noi.lfsr = a.noi.lfsr
  dmc      : b.dmc = a.dmc
  fc       : FcOk a.fc → FcOk b.fc
  rsAcc    : b.rsAcc = a.rsAcc

theorem sequencerAction_kept (a : Apu) : SeqKept a a.sequencerAction := by
  unfold Apu.sequencerAction
  split <;> exact ⟨rfl, rfl, rfl, fun h => ⟨by first | exact h.cycle | exact Nat.zero_le _, h.delay⟩, rfl⟩

theorem sequencer_kept (a : Apu) : SeqKept a a.sequencer := by
  unfold Apu.sequencer
  dsimp only
  split
  · split <;> exact ⟨rfl, rfl, rfl, fun h => ⟨Nat.zero_le _, Nat.le_trans (Nat.sub_le _ _) h.delay⟩, rfl⟩
  · have h := sequencerAction_kept
      (({ a with fc := { a.fc with resetDelay := a.fc.resetDelay - 1 } } : Apu).setFrameCycle
        (frameCycleNext a.fc.cycle))
    exact ⟨h.noiTimer, h.lfsr, h.dmc,
      fun f => h.fc ⟨frameCycleNext_le f.cycle, Nat.le_trans (Nat.sub_le _ _) f.delay⟩, h.rsAcc⟩

theorem timers_ok {a : Apu} (cycles : Nat) (ok : ApuOk a) : ApuOk (a.timers cycles) := by
  unfold Apu.timers
  refine .of ?_ ?_ ok.fc ok.rsAcc
  · dsimp only
    split
    · exact noiseClock_ok ok.noi
    · exact ok.noi
  · dsimp only
    split
    · exact dmcClock_ok ok.dmc
    · exact ok.dmc

theorem units_ok {a : Apu} (cycles : Nat) (ok : ApuOk a) : ApuOk (a.units cycles) := by
  have h := sequencer_kept a
  refine timers_ok cycles (.of ?_ ?_ (h.fc ok.fc) ?_)
  · exact ⟨h.noiTimer ▸ ok.noiTimer, h.lfsr ▸ ok.lfsr⟩
  · exact h.dmc.symm ▸ ok.dmc
  · exact h.rsAcc.symm ▸ ok.rsAcc

theorem resamplerNext_lt {rate acc : Nat} (hr : 11 * rate ≤ Config.resamplerModulus)
    (h : acc < Config.resamplerModulus) : resamplerNext rate acc < Config.resamplerModulus := by
  unfold resamplerNext resamplerEmits
  split
  · omega
  · rename_i hn
    simp only [decide_eq_true_eq] at hn
    omega

/-! ## Register writes -/

theorem writeEnables_ok {a : Apu} (v : Byte) (ok : ApuOk a) : ApuOk (a.writeEnables v) := by
  unfold Apu.writeEnables
  refine .of ok.noi ?_ ok.fc ok.rsAcc
  dsimp only
  have : DmcOk (if !v.getLsbD 4 then { a.dmc with remain := 0 }
      else if a.dmc.remain = 0 then a.dmc.restart else a.dmc) := by
    split
    · exact { ok.dmc with remain := (by decide : (0 : BitVec 12) ≤ 4081) }
    · split
      · exact dmcRestart_ok ok.dmc
      · exact ok.dmc
  exact { this with }

theorem dmcStart_write : ∀ v : Byte, 0xC000#16 ≤ 0xC000 + (v.setWidth 16 <<< 6) ∧
    (0xC000 + (v.setWidth 16 <<< 6)) &&& 63 = 0#16 := by decide +revert

theorem dmcLength_write : ∀ v : Byte, 1#12 ≤ (v.setWidth 12 <<< 4) + 1 ∧ (v.setWidth 12 <<< 4) + 1 ≤ 4081#12 := by
  decide +revert

theorem apuWrite_ok {a : Apu} (cycles reg : Nat) (v : Byte) (ok : ApuOk a) : ApuOk (a.write cycles reg v) := by
  unfold Apu.write
  split
  all_goals first
    | exact { ok with }
    | exact ok
    | exact { ok with dmcStart := dmcStart_write v }
    | exact { ok with dmcLength := dmcLength_write v }
    | exact writeEnables_ok v ok
    | exact { ok with resetDelay := by show (if _ then 4 else 5) ≤ 5; split <;> decide }

theorem statusRead_ok {a : Apu} (ok : ApuOk a) : ApuOk a.statusRead := { ok with }

end Sys2Proof.Machine
end

