-- ==== Sys2Proof/Laws/Mapper.lean ====
section
/-! SUPPORT. What the PPU's reports can do to a mapper: clock the MMC3 counter, never move a bank. So the rest of a cycle and
every read leave the CPU's view of the cartridge alone. -/

namespace Sys2Proof.Machine

/-- The part of a mapper that its register writes set, without the MMC3 counter: its banks and protections. -/
def Mapper.banks : Mapper → Mapper
  | .mmc3 r => .mmc3 { r with counter := 0, reload := false, irq := false, a12LastHigh := 0 }
  | mp => mp

theorem ramReadable_banks (mp : Mapper) : mp.banks.ramReadable = mp.ramReadable := by cases mp <;> rfl

theorem ramWritable_banks (mp : Mapper) : mp.banks.ramWritable = mp.ramWritable := by cases mp <;> rfl

theorem mmc3PrgBank_counter (r : Mmc3) (n w : Nat) :
    mmc3PrgBank { r with counter := 0, reload := false, irq := false, a12LastHigh := 0 } n w = mmc3PrgBank r n w := by
  unfold mmc3PrgBank Mmc3.reg
  rfl

theorem prgOffset_mmc3 (img : Image) (r : Mmc3) (a : Word) :
    prgOffset img (.mmc3 r) a =
      bankOffset img.prgSize 8192 (mmc3PrgBank r (2 * img.prgCount.toNat) ((a.toNat - 0x8000) / 8192))
        (a.toNat % 8192) := rfl

theorem prgOffset_banks (img : Image) (mp : Mapper) (a : Word) : prgOffset img mp.banks a = prgOffset img mp a := by
  cases mp with
  | mmc3 r =>
    rw [Mapper.banks, prgOffset_mmc3, prgOffset_mmc3, mmc3PrgBank_counter]
  | _ => rfl

theorem mapperCpuRead_banks (image : Option Image) (cart : Cart) (mp : Mapper) (a : Word) :
    mapperCpuRead image cart mp.banks a = mapperCpuRead image cart mp a := by
  simp only [mapperCpuRead, ramReadable_banks, prgOffset_banks]

@[simp] theorem ppuAddr_banks (mp : Mapper) (c : Nat) (a : PpuAddr) : (mp.ppuAddr c a).banks = mp.banks := by
  cases mp <;> try rfl
  rename_i r
  unfold Mapper.ppuAddr
  dsimp only
  split
  · split <;> rfl
  · rfl

theorem bgFetch_banks (w : PpuWorld) (p : Ppu) (mp : Mapper) : (bgFetch w p mp).2.banks = mp.banks := by
  unfold bgFetch
  split
  · split <;> simp
  · split <;> simp

theorem spriteFetch_banks (w : PpuWorld) (p : Ppu) (mp : Mapper) : (spriteFetch w p mp).2.banks = mp.banks := by
  unfold spriteFetch
  split
  · dsimp only
    split <;> simp
  · rfl

theorem renderDot_banks (w : PpuWorld) (p : Ppu) (mp : Mapper) : (renderDot w p mp).2.banks = mp.banks := by
  unfold renderDot
  split
  · exact (spriteFetch_banks _ _ _).trans (bgFetch_banks _ _ _)
  · rfl

theorem ppuTick_banks (w : PpuWorld) (o : DotOut) : (ppuTick w o).mapper.banks = o.mapper.banks :=
  renderDot_banks _ _ _

@[simp] theorem endCycle_banks (s : State) : (endCycle s).mach.mapper.banks = s.mach.mapper.banks := by
  have : (endCycle s).mach.mapper = (threeDots s).mapper := rfl
  rw [this, threeDots, ppuTick_banks, ppuTick_banks, ppuTick_banks]

theorem vramIncrement_banks (p : Ppu) (mp : Mapper) (c : Nat) : (vramIncrement p mp c).2.banks = mp.banks := by
  unfold vramIncrement
  split <;> simp

theorem ppuRegRead_banks (w : PpuWorld) (r : BitVec 3) (p : Ppu) (mp : Mapper) :
    (ppuRegRead w r p mp).2.2.banks = mp.banks := by
  unfold ppuRegRead
  split <;> simp [vramIncrement_banks]

theorem ppuRegWrite_banks (w : PpuWorld) (r : BitVec 3) (v : Byte) (p : Ppu) (mp : Mapper) :
    (ppuRegWrite w r v p mp).mapper.banks = mp.banks := by
  unfold ppuRegWrite
  dsimp only
  split
  · split <;> rfl
  · split <;> rfl
  · rfl
  · split <;> rfl
  · split
    · rfl
    · split <;> rfl
  · split
    · rfl
    · split
      · simp
      · rfl
  · simp only [vramIncrement_banks]
    split <;> simp
  · rfl

@[simp] theorem busRead_banks (a : Word) (s : State) : (busRead a s).2.mach.mapper.banks = s.mach.mapper.banks := by
  unfold busRead
  cases region a <;> first | exact ppuRegRead_banks _ _ _ _ | rfl

/-- A write below $8000 reaches no mapper register. -/
theorem busWrite_banks {a : Word} (h : a < 0x8000) (v : Byte) (s : State) :
    (busWrite a v s).mach.mapper.banks = s.mach.mapper.banks := by
  unfold busWrite
  cases region a
  case ppuReg r => exact ppuRegWrite_banks _ _ _ _ _
  case cartridge =>
    show (mapperCpuWrite _ _ _ _ _ _).2.banks = _
    unfold mapperCpuWrite
    split
    · rfl
    · split
      · rfl
      · split <;> rfl
  all_goals rfl

/-- What memory holds depends on work RAM and on the cartridge's banks alone. -/
theorem memByte_congr {s t : State} (a : Word) (hr : t.mach.ram = s.mach.ram) (hi : t.image = s.image)
    (hc : t.mach.cart.prgRam = s.mach.cart.prgRam) (hb : t.mach.mapper.banks = s.mach.mapper.banks) :
    memByte a t = memByte a s := by
  unfold memByte
  cases region a <;> try rfl
  · simp only [hr]
  · dsimp only
    rw [← mapperCpuRead_banks t.image, ← mapperCpuRead_banks s.image, hb, hi]
    unfold mapperCpuRead
    rw [hc]

end Sys2Proof.Machine
end

