-- ==== Sys2Proof/Laws/Frames.lean ====
section
/-! SUPPORT. The frames `Kept`, `MemoryKept` and `StoredAt` of the primitives: what each bus cycle and each register update keeps,
and how frames compose. -/

namespace Sys2Proof.Machine

/-! ## `Kept` -/

theorem Kept.refl (s : State) : Kept s s := ⟨rfl, rfl, rfl, rfl, rfl, rfl⟩

theorem Kept.trans {s t u : State} (h : Kept s t) (g : Kept t u) : Kept s u where
  image := g.image.trans h.image
  host := by rw [g.host, h.host]
  frameCount := g.frameCount.trans h.frameCount
  latched0 := g.latched0.trans h.latched0
  latched1 := g.latched1.trans h.latched1
  rstPending := g.rstPending.trans h.rstPending

theorem kept_endCycle (s : State) : Kept s (endCycle s) := ⟨rfl, endCycle_host s, rfl, rfl, rfl, rfl⟩

theorem kept_busRead (a : Word) (s : State) : Kept s (busRead a s).2 where
  image := busRead_image _ _
  host := by rw [busRead_host]
  frameCount := busRead_frameCount _ _
  latched0 := busRead_latched0 _ _
  latched1 := busRead_latched1 _ _
  rstPending := by rw [busRead_hidden]

theorem kept_busWrite (a : Word) (v : Byte) (s : State) : Kept s (busWrite a v s) where
  image := busWrite_image _ _ _
  host := by rw [busWrite_host]
  frameCount := busWrite_frameCount _ _ _
  latched0 := busWrite_latched0 _ _ _
  latched1 := busWrite_latched1 _ _ _
  rstPending := by rw [busWrite_hidden]

theorem kept_updateRegs (f : Regs → Regs) (s : State) : Kept s (updateRegs f s) := ⟨rfl, rfl, rfl, rfl, rfl, rfl⟩

theorem kept_updateHidden {f : Hidden → Hidden} (s : State) (h : (f s.mach.hidden).rstPending = s.mach.hidden.rstPending) :
    Kept s (updateHidden f s) := ⟨rfl, rfl, rfl, rfl, rfl, h⟩

theorem kept_poll (s : State) : Kept s (poll s) := kept_updateHidden s rfl

theorem kept_dummyRead (a : Word) (s : State) : Kept s (dummyRead a s) :=
  (kept_busRead a s).trans (kept_endCycle _)

theorem kept_memRead (a : Word) (s : State) : Kept s (memRead a s).2 := kept_dummyRead a s

theorem kept_memWrite (a : Word) (v : Byte) (s : State) : Kept s (memWrite a v s) :=
  (kept_busWrite a v s).trans (kept_endCycle _)

/-! ## `MemoryKept` -/

theorem MemoryKept.of_eq {s t : State} (hr : t.mach.ram = s.mach.ram) (hc : t.mach.cart = s.mach.cart)
    (hv : t.mach.vmem = s.mach.vmem) (hq : t.mach.dmaReq = s.mach.dmaReq) (hp : t.mach.dmaPage = s.mach.dmaPage)
    (hi : t.image = s.image) (hb : t.mach.mapper.banks = s.mach.mapper.banks) : MemoryKept s t :=
  ⟨fun a => memByte_congr a hr hi (by rw [hc]) hb, hr, hc, hv, hq, hp⟩

theorem MemoryKept.refl (s : State) : MemoryKept s s := ⟨fun _ => rfl, rfl, rfl, rfl, rfl, rfl⟩

theorem MemoryKept.trans {s t u : State} (h : MemoryKept s t) (g : MemoryKept t u) : MemoryKept s u where
  bytes a := (g.bytes a).trans (h.bytes a)
  ram := g.ram.trans h.ram
  cart := g.cart.trans h.cart
  vmem := g.vmem.trans h.vmem
  dmaReq := g.dmaReq.trans h.dmaReq
  dmaPage := g.dmaPage.trans h.dmaPage

theorem memoryKept_endCycle (s : State) : MemoryKept s (endCycle s) :=
  .of_eq rfl rfl rfl rfl rfl rfl (endCycle_banks s)

theorem memoryKept_busRead (a : Word) (s : State) : MemoryKept s (busRead a s).2 :=
  .of_eq (busRead_ram _ _) (busRead_cart _ _) (busRead_vmem _ _) (busRead_dmaReq _ _) (busRead_dmaPage _ _)
    (busRead_image _ _) (busRead_banks _ _)

theorem memoryKept_updateRegs (f : Regs → Regs) (s : State) : MemoryKept s (updateRegs f s) :=
  .of_eq rfl rfl rfl rfl rfl rfl rfl

theorem memoryKept_updateHidden (f : Hidden → Hidden) (s : State) : MemoryKept s (updateHidden f s) :=
  .of_eq rfl rfl rfl rfl rfl rfl rfl

theorem memoryKept_dummyRead (a : Word) (s : State) : MemoryKept s (dummyRead a s) :=
  (memoryKept_busRead a s).trans (memoryKept_endCycle _)

/-! ## The fields of a bus cycle -/

@[simp] theorem dummyRead_regs (a : Word) (s : State) : (dummyRead a s).mach.regs = s.mach.regs :=
  busRead_regs a s

@[simp] theorem memRead_snd (a : Word) (s : State) : (memRead a s).2 = dummyRead a s := rfl

@[simp] theorem memRead_fst (a : Word) (s : State) : (memRead a s).1 = peek a s := rfl

@[simp] theorem memWrite_regs (a : Word) (v : Byte) (s : State) : (memWrite a v s).mach.regs = s.mach.regs :=
  busWrite_regs a v s

theorem dummyRead_cycles (a : Word) (s : State) :
    (dummyRead a s).mach.hidden.cycles = s.mach.hidden.cycles + 1 := by
  rw [dummyRead, endCycle_cycles, busRead_hidden]

theorem dummyRead_jammed (a : Word) (s : State) : (dummyRead a s).mach.hidden.jammed = s.mach.hidden.jammed := by
  rw [dummyRead, endCycle_jammed, busRead_hidden]

theorem dummyRead_intDue (a : Word) (s : State) : (dummyRead a s).mach.hidden.intDue = s.mach.hidden.intDue := by
  rw [dummyRead, endCycle_intDue, busRead_hidden]

theorem dummyRead_banks (a : Word) (s : State) : (dummyRead a s).mach.mapper.banks = s.mach.mapper.banks := by
  rw [dummyRead, endCycle_banks, busRead_banks]

theorem memWrite_cycles (a : Word) (v : Byte) (s : State) :
    (memWrite a v s).mach.hidden.cycles = s.mach.hidden.cycles + 1 := by
  rw [memWrite, endCycle_cycles, busWrite_hidden]

theorem memWrite_jammed (a : Word) (v : Byte) (s : State) :
    (memWrite a v s).mach.hidden.jammed = s.mach.hidden.jammed := by
  rw [memWrite, endCycle_jammed, busWrite_hidden]

theorem memWrite_intDue (a : Word) (v : Byte) (s : State) :
    (memWrite a v s).mach.hidden.intDue = s.mach.hidden.intDue := by
  rw [memWrite, endCycle_intDue, busWrite_hidden]

/-- The value of a read does not depend on the interrupt decision. -/
theorem peek_poll (a : Word) (s : State) : peek a (poll s) = peek a s := by
  unfold peek busRead
  cases region a <;> rfl

end Sys2Proof.Machine
end

