-- ==== Sys2Proof/Laws/Stores.lean ====
section
/-! SUPPORT. What one bus write stores, and how stores compose with cycles that store nothing. -/

namespace Sys2Proof.Machine

/-- Nothing is stored and no bank moves: `MemoryKept` with what makes it compose. -/
structure Quiet (s t : State) : Prop where
  ram     : t.mach.ram = s.mach.ram
  cart    : t.mach.cart = s.mach.cart
  vmem    : t.mach.vmem = s.mach.vmem
  dmaReq  : t.mach.dmaReq = s.mach.dmaReq
  dmaPage : t.mach.dmaPage = s.mach.dmaPage
  image   : t.image = s.image
  banks   : t.mach.mapper.banks = s.mach.mapper.banks

theorem Quiet.refl (s : State) : Quiet s s := ⟨rfl, rfl, rfl, rfl, rfl, rfl, rfl⟩

theorem Quiet.trans {s t u : State} (h : Quiet s t) (g : Quiet t u) : Quiet s u :=
  ⟨g.ram.trans h.ram, g.cart.trans h.cart, g.vmem.trans h.vmem, g.dmaReq.trans h.dmaReq, g.dmaPage.trans h.dmaPage,
    g.image.trans h.image, g.banks.trans h.banks⟩

theorem Quiet.memoryKept {s t : State} (h : Quiet s t) : MemoryKept s t :=
  .of_eq h.ram h.cart h.vmem h.dmaReq h.dmaPage h.image h.banks

theorem quiet_endCycle (s : State) : Quiet s (endCycle s) := ⟨rfl, rfl, rfl, rfl, rfl, rfl, endCycle_banks s⟩

theorem quiet_busRead (a : Word) (s : State) : Quiet s (busRead a s).2 :=
  ⟨busRead_ram _ _, busRead_cart _ _, busRead_vmem _ _, busRead_dmaReq _ _, busRead_dmaPage _ _, busRead_image _ _,
    busRead_banks _ _⟩

theorem quiet_dummyRead (a : Word) (s : State) : Quiet s (dummyRead a s) :=
  (quiet_busRead a s).trans (quiet_endCycle _)

theorem quiet_updateRegs (f : Regs → Regs) (s : State) : Quiet s (updateRegs f s) := ⟨rfl, rfl, rfl, rfl, rfl, rfl, rfl⟩

theorem quiet_updateHidden (f : Hidden → Hidden) (s : State) : Quiet s (updateHidden f s) :=
  ⟨rfl, rfl, rfl, rfl, rfl, rfl, rfl⟩

theorem quiet_poll (s : State) : Quiet s (poll s) := quiet_updateHidden _ s

/-- Work RAM and PRG RAM are in canonical form. -/
def RamsOk (m : MachineState) : Prop := Memory.wf m.ram = true ∧ Memory.wf m.cart.prgRam = true

theorem MemoriesOk.rams {m : MachineState} (h : MemoriesOk m) : RamsOk m := ⟨h.ram.1, h.prgRam.1⟩

theorem Quiet.ramsOk {s t : State} (h : Quiet s t) (m : RamsOk s.mach) : RamsOk t.mach := by
  unfold RamsOk
  rw [h.ram, h.cart]
  exact m

theorem Quiet.reachesPrgRam {s t : State} (h : Quiet s t) (e : Word) (i : Nat) :
    reachesPrgRam t e i = reachesPrgRam s e i := by
  unfold Machine.reachesPrgRam
  rw [h.image, ← ramWritable_banks t.mach.mapper, ← ramWritable_banks s.mach.mapper, h.banks]

/-- Cycles that store nothing may precede a store. -/
theorem Quiet.storedAt {s t u : State} {e : Word} {v : Byte} (h : Quiet s t) (g : StoredAt e v t u) : StoredAt e v s u where
  ram i := by rw [g.ram, h.ram]
  prgRam i := by rw [g.prgRam, h.reachesPrgRam, h.cart]
  video h4 h7 := by rw [← h.vmem, ← h.cart]; exact g.video h4 h7
  dmaReq := by rw [g.dmaReq, h.dmaReq]
  dmaPage := by rw [g.dmaPage, h.dmaPage]
  low a ha := by rw [g.low a ha, h.memoryKept.bytes]
  high a ha he := by rw [g.high a ha he, h.reachesPrgRam, h.memoryKept.bytes]
  openBus := g.openBus

/-- Cycles that store nothing and leave the bus latch alone may follow a store. -/
theorem StoredAt.quiet {s t u : State} {e : Word} {v : Byte} (g : StoredAt e v s t) (h : Quiet t u)
    (ho : u.mach.openBus = t.mach.openBus) : StoredAt e v s u where
  ram i := by rw [h.ram, g.ram]
  prgRam i := by rw [h.cart, g.prgRam]
  video h4 h7 := by rw [h.vmem, h.cart]; exact g.video h4 h7
  dmaReq := by rw [h.dmaReq, g.dmaReq]
  dmaPage := by rw [h.dmaPage, g.dmaPage]
  low a ha := by rw [h.memoryKept.bytes, g.low a ha]
  high a ha he := by rw [h.memoryKept.bytes, g.high a ha he]
  openBus := ho.trans g.openBus

/-! ## One write -/

theorem chrWrite_prgRam (image : Option Image) (cart : Cart) (mp : Mapper) (a : PpuAddr) (v : Byte) :
    (chrWrite image cart mp a v).prgRam = cart.prgRam := by
  unfold chrWrite
  split
  · rfl
  · split <;> rfl

theorem ppuPoke_prgRam (w : PpuWorld) (mp : Mapper) (a : PpuAddr) (v : Byte) :
    (ppuPoke w mp a v).2.prgRam = w.cart.prgRam := by
  unfold ppuPoke ntWrite
  split
  · exact chrWrite_prgRam _ _ _ _ _
  · split
    · split
      split <;> rfl
    · rfl

theorem ppuRegWrite_prgRam (w : PpuWorld) (r : BitVec 3) (v : Byte) (p : Ppu) (mp : Mapper) :
    (ppuRegWrite w r v p mp).cart.prgRam = w.cart.prgRam := by
  unfold ppuRegWrite
  dsimp only
  split
  · split <;> rfl
  · split <;> rfl
  · rfl
  · split <;> rfl
  · split
    · rfl
    · split <;> rfl
  · split
    · rfl
    · split <;> rfl
  · show (ite _ _ _ : VideoMem × Cart).2.prgRam = _
    split
    · rfl
    · exact ppuPoke_prgRam _ _ _ _
  · rfl

/-- Only $2004 and $2007 reach the PPU's memories. -/
theorem ppuRegWrite_video {r : BitVec 3} (h4 : r ≠ 4) (h7 : r ≠ 7) (w : PpuWorld) (v : Byte) (p : Ppu) (mp : Mapper) :
    (ppuRegWrite w r v p mp).vmem = w.vmem ∧ (ppuRegWrite w r v p mp).cart = w.cart := by
  unfold ppuRegWrite
  dsimp only
  split
  · split <;> exact ⟨rfl, rfl⟩
  · split <;> exact ⟨rfl, rfl⟩
  · exact ⟨rfl, rfl⟩
  · rename_i h; exact absurd (BitVec.eq_of_toNat_eq h) h4
  · split
    · exact ⟨rfl, rfl⟩
    · split <;> exact ⟨rfl, rfl⟩
  · split
    · exact ⟨rfl, rfl⟩
    · split <;> exact ⟨rfl, rfl⟩
  · rename_i h; exact absurd (BitVec.eq_of_toNat_eq h) h7
  · exact ⟨rfl, rfl⟩

/-- What a write makes of PRG RAM. -/
theorem busWrite_prgRam (e : Word) (v : Byte) (s : State) : (busWrite e v s).mach.cart.prgRam =
    if s.image.isSome && s.mach.mapper.ramWritable && decide (0x6000 ≤ e ∧ e < 0x8000) then
      Cells.write s.mach.cart.prgRam (e.toNat - 0x6000) v
    else s.mach.cart.prgRam := by
  unfold busWrite
  by_cases hc : region e = .cartridge
  · rw [hc]
    show (mapperCpuWrite s.image s.mach.cart s.mach.mapper s.mach.hidden.cycles e v).1.prgRam = _
    unfold mapperCpuWrite
    cases hi : s.image with
    | none => simp
    | some img =>
      dsimp only
      by_cases h1 : e < 0x6000
      · rw [if_pos h1, if_neg]
        simp only [Bool.and_eq_true, decide_eq_true_eq]
        intro h; exact absurd h.2.1 (by bv_omega)
      · rw [if_neg h1]
        by_cases h2 : e < 0x8000
        · rw [if_pos h2]
          have : decide (0x6000 ≤ e ∧ e < 0x8000) = true := by
            rw [decide_eq_true_eq]; exact ⟨by bv_omega, h2⟩
          rw [this]
          cases s.mach.mapper.ramWritable <;> rfl
        · rw [if_neg h2, if_neg]
          simp only [Bool.and_eq_true, decide_eq_true_eq]
          intro h; exact absurd h.2.2 h2
  · rw [if_neg]
    · cases hr : region e
      case ppuReg r => exact ppuRegWrite_prgRam _ _ _ _ _
      case cartridge => exact absurd hr hc
      all_goals rfl
    · simp only [Bool.and_eq_true, decide_eq_true_eq]
      intro h
      exact hc (region_cartridge.mpr (by have := h.2.1; bv_omega))

theorem busWrite_prgRam_read {s : State} (m : RamsOk s.mach) (e : Word) (v : Byte) (i : Nat) :
    Cells.read (busWrite e v s).mach.cart.prgRam i =
      if reachesPrgRam s e i then v else Cells.read s.mach.cart.prgRam i := by
  rw [busWrite_prgRam]
  by_cases hw : (s.image.isSome && s.mach.mapper.ramWritable && decide (0x6000 ≤ e ∧ e < 0x8000)) = true
  · have he : 0x6000 ≤ e := (decide_eq_true_eq.mp (Bool.and_eq_true_iff.mp hw).2).1
    rw [if_pos hw, Cells.read_write m.2]
    have hiff : (i = e.toNat - 0x6000) ↔ reachesPrgRam s e i = true := by
      unfold reachesPrgRam
      rw [hw, Bool.true_and, beq_iff_eq]
      have : 0x6000 ≤ e.toNat := by bv_omega
      omega
    by_cases hi : i = e.toNat - 0x6000
    · rw [if_pos hi, if_pos (hiff.mp hi)]
    · rw [if_neg hi, if_neg (fun h => hi (hiff.mpr h))]
  · rw [if_neg hw, if_neg]
    intro h
    exact hw (Bool.and_eq_true_iff.mp h).1

/-- What a write makes of work RAM. -/
theorem busWrite_ram_read {s : State} (m : RamsOk s.mach) (e : Word) (v : Byte) (i : Nat) :
    Cells.read (busWrite e v s).mach.ram i = if region e = .workRam i then v else Cells.read s.mach.ram i := by
  unfold busWrite
  cases hr : region e
  case workRam k =>
    show Cells.read (Cells.write s.mach.ram k v) i = _
    rw [Cells.read_write m.1]
    by_cases hk : i = k
    · rw [if_pos hk, if_pos (by rw [hk])]
    · rw [if_neg hk, if_neg (fun h => hk (Region.workRam.inj h).symm)]
  all_goals rw [if_neg (by simp)]; rfl

theorem busWrite_video {e : Word} (h4 : region e ≠ .ppuReg 4) (h7 : region e ≠ .ppuReg 7) (v : Byte) (s : State) :
    (busWrite e v s).mach.vmem = s.mach.vmem ∧ (busWrite e v s).mach.cart.chrRam = s.mach.cart.chrRam ∧
      (busWrite e v s).mach.cart.cartVram = s.mach.cart.cartVram := by
  unfold busWrite
  cases hr : region e
  case ppuReg r =>
    have hh := ppuRegWrite_video (r := r) (fun h => h4 (h ▸ hr)) (fun h => h7 (h ▸ hr)) s.ppuWorld v s.mach.ppu s.mach.mapper
    exact ⟨hh.1, congrArg Cart.chrRam hh.2, congrArg Cart.cartVram hh.2⟩
  case cartridge =>
    show s.mach.vmem = s.mach.vmem ∧ (mapperCpuWrite _ _ _ _ _ _).1.chrRam = _ ∧ (mapperCpuWrite _ _ _ _ _ _).1.cartVram = _
    unfold mapperCpuWrite
    split
    · exact ⟨rfl, rfl, rfl⟩
    · split
      · exact ⟨rfl, rfl, rfl⟩
      · split
        · dsimp only; split <;> exact ⟨rfl, rfl, rfl⟩
        · exact ⟨rfl, rfl, rfl⟩
  all_goals exact ⟨rfl, rfl, rfl⟩

/-- What the cartridge drives at `a` after a write below $8000. -/
theorem mapperCpuRead_write {s : State} (m : RamsOk s.mach) {e : Word} (he : e < 0x8000) (v : Byte) (a : Word) :
    mapperCpuRead (busWrite e v s).image (busWrite e v s).mach.cart (busWrite e v s).mach.mapper a =
      if a = e ∧ reachesPrgRam s e (e.toNat - 0x6000) = true then some v
      else mapperCpuRead s.image s.mach.cart s.mach.mapper a := by
  rw [← mapperCpuRead_banks, busWrite_banks he, mapperCpuRead_banks, busWrite_image]
  unfold mapperCpuRead
  cases hi : s.image with
  | none => simp [reachesPrgRam, hi]
  | some img =>
    dsimp only
    by_cases h1 : a < 0x6000
    · rw [if_pos h1, if_pos h1, if_neg]
      rintro ⟨rfl, h⟩
      have h' : 0x6000 ≤ a ∧ a < 0x8000 := by
        simp only [reachesPrgRam, Bool.and_eq_true, decide_eq_true_eq] at h
        exact h.1.2
      exact absurd h'.1 (by bv_omega)
    · rw [if_neg h1, if_neg h1]
      by_cases h2 : a < 0x8000
      · rw [if_pos h2, if_pos h2, busWrite_prgRam_read m]
        have hreach : (reachesPrgRam s e (a.toNat - 0x6000) = true) ↔
            (a = e ∧ reachesPrgRam s e (e.toNat - 0x6000) = true) := by
          constructor
          · intro h
            have hae : e.toNat = 0x6000 + (a.toNat - 0x6000) := by
              unfold reachesPrgRam at h
              exact beq_iff_eq.mp (Bool.and_eq_true_iff.mp h).2
            have : a = e := BitVec.eq_of_toNat_eq (by have : 0x6000 ≤ a.toNat := by bv_omega
                                                      omega)
            subst this
            exact ⟨rfl, h⟩
          · rintro ⟨rfl, h⟩
            exact h
        by_cases hr : reachesPrgRam s e (a.toNat - 0x6000) = true
        · rw [if_pos hr, if_pos (hreach.mp hr)]
          have hw : s.mach.mapper.ramWritable = true := by
            simp only [reachesPrgRam, Bool.and_eq_true] at hr
            exact hr.1.1.2
          have : s.mach.mapper.ramReadable = true := by
            cases hm : s.mach.mapper <;> simp_all [Mapper.ramReadable, Mapper.ramWritable]
          rw [if_pos this]
        · rw [if_neg hr, if_neg (fun h => hr (hreach.mpr h))]
      · rw [if_neg h2, if_neg h2, if_neg]
        rintro ⟨rfl, _⟩
        exact h2 he

/-- ONE STORE: what a write cycle does to every memory. -/
theorem storedAt_memWrite {s : State} (m : RamsOk s.mach) (e : Word) (v : Byte) : StoredAt e v s (memWrite e v s) := by
  refine StoredAt.quiet (t := busWrite e v s) ?_ (quiet_endCycle _) rfl
  refine ⟨busWrite_ram_read m e v, busWrite_prgRam_read m e v, fun h4 h7 => busWrite_video h4 h7 v s, busWrite_dmaReq _ _ _,
    busWrite_dmaPage _ _ _, fun a ha => ?_, fun a ha he => ?_, busWrite_openBus _ _ _⟩
  · have hr := region_workRam ha
    unfold memByte
    rw [hr]
    show some (Cells.read _ _) = _
    rw [busWrite_ram_read m]
    by_cases h : region e = .workRam (a.toNat % 2048)
    · rw [if_pos h, if_pos h.symm]
    · rw [if_neg h, if_neg (fun g => h g.symm)]
  · unfold memByte
    rw [region_cartridge.mpr ha]
    exact mapperCpuRead_write m he v a

/-- A write keeps work RAM and PRG RAM in canonical form. -/
theorem ramsOk_memWrite {s : State} (m : RamsOk s.mach) (e : Word) (v : Byte) : RamsOk (memWrite e v s).mach := by
  constructor
  · show Memory.wf (busWrite e v s).mach.ram = true
    rw [busWrite_ram]
    split
    · exact Cells.write_wf m.1 _ _
    · exact m.1
  · show Memory.wf (busWrite e v s).mach.cart.prgRam = true
    rw [busWrite_prgRam]
    split
    · exact Cells.write_wf m.2 _ _
    · exact m.2

/-- The mapper's banks after a write below $8000. -/
theorem memWrite_banks {e : Word} (h : e < 0x8000) (v : Byte) (s : State) :
    (memWrite e v s).mach.mapper.banks = s.mach.mapper.banks := by
  rw [memWrite, endCycle_banks, busWrite_banks h]

theorem memWrite_image (e : Word) (v : Byte) (s : State) : (memWrite e v s).image = s.image := busWrite_image e v s

/-- A write to PRG RAM leaves the cartridge reachable as it was. -/
theorem reachesPrgRam_memWrite (e : Word) (v : Byte) (s : State) (i : Nat) :
    reachesPrgRam (memWrite e v s) e i = reachesPrgRam s e i := by
  by_cases h : e < 0x8000
  · unfold reachesPrgRam
    rw [memWrite_image, ← ramWritable_banks (memWrite e v s).mach.mapper, memWrite_banks h, ramWritable_banks]
  · unfold reachesPrgRam
    rw [decide_eq_false (fun hh => h hh.2), Bool.and_false, Bool.and_false]

/-- TWO STORES to one address, as a read-modify-write makes them: the second counts. -/
theorem StoredAt.twice {s t u : State} {e : Word} {old new : Byte} (h : StoredAt e old s t) (g : StoredAt e new t u)
    (hr : ∀ i, reachesPrgRam t e i = reachesPrgRam s e i) : StoredAt e new s u where
  ram i := by rw [g.ram, h.ram]; split <;> rfl
  prgRam i := by rw [g.prgRam, h.prgRam, hr]; split <;> rfl
  video h4 h7 :=
    have g' := g.video h4 h7
    have h' := h.video h4 h7
    ⟨g'.1.trans h'.1, g'.2.1.trans h'.2.1, g'.2.2.trans h'.2.2⟩
  dmaReq := by rw [g.dmaReq, h.dmaReq, Bool.or_assoc, Bool.or_self]
  dmaPage := by rw [g.dmaPage, h.dmaPage]; split <;> rfl
  low a ha := by rw [g.low a ha, h.low a ha]; split <;> rfl
  high a ha he := by rw [g.high a ha he, h.high a ha he, hr]; split <;> rfl
  openBus := g.openBus

end Sys2Proof.Machine
end

