-- ==== Sys2Proof/Laws/Classes.lean ====
section
/-! SUPPORT. One spec lemma for each addressing mode and each access class: everything it can do, in the terms of Safety. -/

namespace Sys2Proof.Machine

/-- What the cycles of an addressing mode leave alone: registers, decisions, memories. -/
structure Steady (s t : State) : Prop where
  regs   : t.mach.regs = s.mach.regs
  jammed : t.mach.hidden.jammed = s.mach.hidden.jammed
  intDue : t.mach.hidden.intDue = s.mach.hidden.intDue
  kept   : Kept s t
  quiet  : Quiet s t

theorem Steady.refl (s : State) : Steady s s := ⟨rfl, rfl, rfl, .refl s, .refl s⟩

theorem Steady.trans {s t u : State} (h : Steady s t) (g : Steady t u) : Steady s u :=
  ⟨g.regs.trans h.regs, g.jammed.trans h.jammed, g.intDue.trans h.intDue, h.kept.trans g.kept, h.quiet.trans g.quiet⟩

theorem steady_dummyRead (a : Word) (s : State) : Steady s (dummyRead a s) :=
  ⟨dummyRead_regs a s, dummyRead_jammed a s, dummyRead_intDue a s, kept_dummyRead a s, quiet_dummyRead a s⟩

theorem steady_endCycle (s : State) : Steady s (endCycle s) :=
  ⟨rfl, endCycle_jammed s, endCycle_intDue s, kept_endCycle s, quiet_endCycle s⟩

/-! ## Addressing modes: cycles, and what they leave alone -/

theorem steady_addrZp (nn : Byte) (s : State) : Steady s (addrZp nn s).2 := .refl s

theorem steady_addrZpIndexed (index : Regs → Byte) (nn : Byte) (s : State) : Steady s (addrZpIndexed index nn s).2 :=
  steady_dummyRead _ s

theorem steady_addrAbs (addr : Word) (s : State) : Steady s (addrAbs addr s).2 := .refl s

theorem steady_fixCycle (always : Bool) (base : Word) (index : Byte) (s : State) :
    Steady s (fixCycle always base index s) := by
  unfold fixCycle
  split
  · exact steady_dummyRead _ s
  · exact .refl s

theorem steady_addrAbsIndexed (always : Bool) (index : Regs → Byte) (addr : Word) (s : State) :
    Steady s (addrAbsIndexed always index addr s).2 := steady_fixCycle _ _ _ s

theorem steady_zpPointer (p : Byte) (s : State) : Steady s (zpPointer p s).2 :=
  (steady_dummyRead _ s).trans (steady_dummyRead _ _)

theorem steady_addrIzx (nn : Byte) (s : State) : Steady s (addrIzx nn s).2 :=
  (steady_dummyRead _ s).trans (steady_zpPointer _ _)

theorem steady_addrIzy (always : Bool) (nn : Byte) (s : State) : Steady s (addrIzy always nn s).2 :=
  (steady_zpPointer nn s).trans (steady_fixCycle _ _ _ _)

theorem fixCycle_cycles (always : Bool) (base : Word) (index : Byte) (s : State) :
    (fixCycle always base index s).mach.hidden.cycles =
      s.mach.hidden.cycles + if always || pageCross base index then 1 else 0 := by
  unfold fixCycle
  split
  · exact dummyRead_cycles _ _
  · rfl

theorem zpPointer_cycles (p : Byte) (s : State) : (zpPointer p s).2.mach.hidden.cycles = s.mach.hidden.cycles + 2 := by
  show (dummyRead _ (dummyRead _ s)).mach.hidden.cycles = _
  rw [dummyRead_cycles, dummyRead_cycles]

/-! ## Access classes -/

theorem ImpliedCompletes.intro {i : Instr} {op : Regs → Regs} (h : ∀ s, exec i s = .next (implied op s)) :
    ImpliedCompletes i op := fun s => by
  refine ⟨_, h s, ?_, ?_, ?_, ?_, ?_, ?_⟩
  · show op (dummyRead _ (poll s)).mach.regs = _
    rw [dummyRead_regs]; rfl
  · show (dummyRead _ (poll s)).mach.hidden.intDue = _
    rw [dummyRead_intDue]; rfl
  · show (dummyRead _ (poll s)).mach.hidden.jammed = _
    rw [dummyRead_jammed]; rfl
  · show (dummyRead _ (poll s)).mach.hidden.cycles = _
    rw [dummyRead_cycles]; rfl
  · exact ((kept_poll s).trans (kept_dummyRead _ _)).trans (kept_updateRegs _ _)
  · exact (((quiet_poll s).trans (quiet_dummyRead _ _)).trans (quiet_updateRegs _ _)).memoryKept

theorem ReadCompletes.intro {i : Instr} {op : Byte → Regs → Regs} {addr : AddrFn}
    (h : ∀ s, exec i s = .next (classR op addr s)) (ha : ∀ s, Steady s (addr s).2) : ReadCompletes i addr op := fun s => by
  refine ⟨_, h s, ?_, ?_, ?_, ?_, ?_, ?_⟩
  · show op (peek (addr s).1 (accessState addr s)) (dummyRead (addr s).1 (poll (addr s).2)).mach.regs = _
    rw [dummyRead_regs, poll_regs, (ha s).regs]
  · show (dummyRead (addr s).1 (poll (addr s).2)).mach.hidden.intDue = _
    rw [dummyRead_intDue]; rfl
  · show (dummyRead (addr s).1 (poll (addr s).2)).mach.hidden.jammed = _
    rw [dummyRead_jammed]; exact (ha s).jammed
  · show (dummyRead (addr s).1 (poll (addr s).2)).mach.hidden.cycles = _
    rw [dummyRead_cycles]; rfl
  · exact (((ha s).kept.trans (kept_poll _)).trans (kept_dummyRead _ _)).trans (kept_updateRegs _ _)
  · exact ((((ha s).quiet.trans (quiet_poll _)).trans (quiet_dummyRead _ _)).trans (quiet_updateRegs _ _)).memoryKept

theorem updateRegs_id (s : State) : updateRegs id s = s := rfl

theorem ImpliedNopCompletes.intro {i : Instr} (h : ∀ s, exec i s = .next (implied id s)) : ImpliedNopCompletes i :=
  ⟨.intro h, fun s => (h s).trans (congrArg Host.Outcome.next (updateRegs_id _))⟩

theorem ReadNopCompletes.intro {i : Instr} {addr : AddrFn} (h : ∀ s, exec i s = .next (classR noEffect addr s))
    (ha : ∀ s, Steady s (addr s).2) : ReadNopCompletes i addr :=
  ⟨.intro h ha, fun s => (h s).trans (congrArg Host.Outcome.next (updateRegs_id _))⟩

theorem storedAt_poll {s : State} (m : RamsOk s.mach) (e : Word) (v : Byte) : StoredAt e v s (memWrite e v (poll s)) :=
  (quiet_poll s).storedAt (storedAt_memWrite (s := poll s) m e v)

/-- An instruction that ends in a write of `v` to `e`, after cycles that leave everything alone and a poll. -/
theorem write_completes {s t : State} (h : Steady s t) (m : RamsOk s.mach) (e : Word) (v : Byte) :
    (memWrite e v (poll t)).mach.regs = s.mach.regs ∧ (memWrite e v (poll t)).mach.hidden.intDue = pollResult t ∧
    (memWrite e v (poll t)).mach.hidden.jammed = s.mach.hidden.jammed ∧
    (memWrite e v (poll t)).mach.hidden.cycles = t.mach.hidden.cycles + 1 ∧ Kept s (memWrite e v (poll t)) ∧
    StoredAt e v s (memWrite e v (poll t)) := by
  refine ⟨?_, ?_, ?_, ?_, ?_, ?_⟩
  · rw [memWrite_regs, poll_regs, h.regs]
  · rw [memWrite_intDue]; rfl
  · rw [memWrite_jammed]; exact h.jammed
  · rw [memWrite_cycles]; rfl
  · exact (h.kept.trans (kept_poll _)).trans (kept_memWrite _ _ _)
  · exact h.quiet.storedAt (storedAt_poll (h.quiet.ramsOk m) e v)

theorem WriteCompletes.intro {i : Instr} {val : Regs → Byte} {addr : AddrFn}
    (h : ∀ s, exec i s = .next (classW val addr s)) (ha : ∀ s, Steady s (addr s).2) :
    WriteCompletes i addr val id := fun s m => by
  have hw := write_completes (ha s) m.rams (addr s).1 (val s.mach.regs)
  refine ⟨_, h s, ?_⟩
  unfold classW
  dsimp only
  rw [(ha s).regs]
  exact hw

theorem steady_poll_quiet {s t : State} (h : Steady s t) : Quiet s (poll t) := h.quiet.trans (quiet_poll t)

theorem ModifyCompletes.intro {i : Instr} {op : Byte → Regs → Byte × Regs} {addr : AddrFn}
    (h : ∀ s, exec i s = .next (classM op addr s)) (ha : ∀ s, Steady s (addr s).2) :
    ModifyCompletes i addr (fun v r => (op v r).1) (fun v r => (op v r).2) := fun s m => by
  have h1 : Steady s (dummyRead (addr s).1 (addr s).2) := (ha s).trans (steady_dummyRead _ _)
  have hr : (poll (memWrite (addr s).1 (peek (addr s).1 (addr s).2) (dummyRead (addr s).1 (addr s).2))).mach.regs =
      s.mach.regs := by rw [poll_regs, memWrite_regs, h1.regs]
  have m1 := h1.quiet.ramsOk m.rams
  have s1 := h1.quiet.storedAt (storedAt_memWrite m1 (addr s).1 (peek (addr s).1 (addr s).2))
  have hp : ∀ i, reachesPrgRam (memWrite (addr s).1 (peek (addr s).1 (addr s).2) (dummyRead (addr s).1 (addr s).2))
      (addr s).1 i = reachesPrgRam s (addr s).1 i := fun i => by
    rw [reachesPrgRam_memWrite, h1.quiet.reachesPrgRam]
  have s2 := s1.twice (storedAt_poll (ramsOk_memWrite m1 _ _) (addr s).1
    (op (peek (addr s).1 (addr s).2) s.mach.regs).1) hp
  refine ⟨_, h s, ?_⟩
  unfold classM
  dsimp only
  rw [memRead_fst, memRead_snd, hr]
  refine ⟨?_, ?_, ?_, ?_, ?_, ?_⟩
  · show (op _ (memWrite _ _ _).mach.regs).2 = _
    rw [memWrite_regs, hr]
  · show (memWrite _ _ _).mach.hidden.intDue = _
    rw [memWrite_intDue]; rfl
  · show (memWrite _ _ _).mach.hidden.jammed = _
    rw [memWrite_jammed]
    show (memWrite _ _ _).mach.hidden.jammed = _
    rw [memWrite_jammed, h1.jammed]
  · show (memWrite _ _ _).mach.hidden.cycles = _
    rw [memWrite_cycles]
    show (memWrite _ _ _).mach.hidden.cycles + 1 = _
    rw [memWrite_cycles, dummyRead_cycles]
  · exact (((h1.kept.trans (kept_memWrite _ _ _)).trans (kept_poll _)).trans (kept_memWrite _ _ _)).trans
      (kept_updateRegs _ _)
  · exact s2.quiet (quiet_updateRegs _ _) rfl

end Sys2Proof.Machine
end

