-- ==== Sys2Proof/Laws/Decode.lean ====
section
/-! SUPPORT. The decoder by instruction length, and how an operand word splits into its bytes. -/

namespace Sys2Proof

theorem word_hi_lo (w : Word) : word (hi w) (lo w) = w := by
  apply BitVec.eq_of_toNat_eq
  have := w.isLt
  simp only [word, hi, lo, BitVec.toNat_append, BitVec.toNat_setWidth, BitVec.toNat_ushiftRight]
  rw [← Nat.shiftLeft_add_eq_or_of_lt (by omega), Nat.shiftLeft_eq, Nat.shiftRight_eq_div_pow]
  omega

theorem lo_word (h l : Byte) : lo (word h l) = l := by
  apply BitVec.eq_of_toNat_eq
  have := l.isLt
  simp only [word, lo, BitVec.toNat_append, BitVec.toNat_setWidth]
  rw [← Nat.shiftLeft_add_eq_or_of_lt (by omega), Nat.shiftLeft_eq]
  omega

theorem hi_word (h l : Byte) : hi (word h l) = h := by
  apply BitVec.eq_of_toNat_eq
  have := l.isLt
  have := h.isLt
  simp only [word, hi, BitVec.toNat_append, BitVec.toNat_setWidth, BitVec.toNat_ushiftRight]
  rw [← Nat.shiftLeft_add_eq_or_of_lt (by omega), Nat.shiftLeft_eq, Nat.shiftRight_eq_div_pow]
  omega

/-- A one-byte instruction. -/
theorem decode_one {op : Byte} (h : opcodeLength op = 1) (rest : List Byte) :
    decode (op :: rest) = .ok (decodeOp op 0 0, rest) := by simp only [decode, h]

/-- A two-byte instruction. -/
theorem decode_two {op : Byte} (h : opcodeLength op = 2) (l : Byte) (rest : List Byte) :
    decode (op :: l :: rest) = .ok (decodeOp op l 0, rest) := by simp only [decode, h]

/-- A three-byte instruction. -/
theorem decode_three {op : Byte} (h : opcodeLength op = 3) (l u : Byte) (rest : List Byte) :
    decode (op :: l :: u :: rest) = .ok (decodeOp op l u, rest) := by simp only [decode, h]

/-- Three bytes or more always decode. -/
theorem opcodeLength_cases : ∀ op : Byte, opcodeLength op = 1 ∨ opcodeLength op = 2 ∨ opcodeLength op = 3 := by
  decide +revert

end Sys2Proof
end

