-- ==== Sys2Proof/Laws/Micro.lean ====
section
/-! SUPPORT. Everything a step is made of: `Micro s t` says that `t` comes from `s` by whole cycles (a read, a write, or no
access) and a few register updates. Each instruction, each sequence and `step` itself are such paths, so what every piece
keeps, every step keeps. -/

namespace Sys2Proof.Machine

/-- A path of the pieces that a step is made of. -/
inductive Micro (s : State) : State → Prop where
  | refl : Micro s s
  | endCycle {t} (h : Micro s t) : Micro s (endCycle t)
  | read {t} (h : Micro s t) (a : Word) : Micro s (dummyRead a t)
  | write {t} (h : Micro s t) (a : Word) (v : Byte) : Micro s (memWrite a v t)
  | regs {t} (h : Micro s t) (f : Regs → Regs) : Micro s (updateRegs f t)
  | hidden {t} (h : Micro s t) (f : Hidden → Hidden) (hc : (f t.mach.hidden).cycles = t.mach.hidden.cycles) :
      Micro s (updateHidden f t)
  | fetched {t} (h : Micro s t) (b : Byte) (hr : t.mach.apu.dmc.remain ≠ 0) : Micro s (dmcFetched b t)
  | dmaDone {t} (h : Micro s t) : Micro s (clearDmaReq t)

namespace Micro

variable {s t u : State}

theorem trans (h : Micro s t) (g : Micro t u) : Micro s u := by
  induction g with
  | refl => exact h
  | endCycle _ ih => exact ih.endCycle
  | read _ a ih => exact ih.read a
  | write _ a v ih => exact ih.write a v
  | regs _ f ih => exact ih.regs f
  | hidden _ f hc ih => exact ih.hidden f hc
  | fetched _ b hr ih => exact ih.fetched b hr
  | dmaDone _ ih => exact ih.dmaDone

theorem dummyRead (h : Micro s t) (a : Word) : Micro s (dummyRead a t) := h.read a

theorem memRead (h : Micro s t) (a : Word) : Micro s (memRead a t).2 := h.read a

theorem memWrite (h : Micro s t) (a : Word) (v : Byte) : Micro s (memWrite a v t) := h.write a v

theorem push (h : Micro s t) (v : Byte) : Micro s (push v t) := (h.memWrite _ v).regs _

theorem pull (h : Micro s t) : Micro s (pull t).2 := (h.regs _).memRead _

theorem poll (h : Micro s t) : Micro s (poll t) := h.hidden _ rfl

theorem incPc (h : Micro s t) : Micro s (incPc t) := h.regs _

theorem setPc (h : Micro s t) (a : Word) : Micro s (setPc a t) := h.regs _

theorem updateFlags (h : Micro s t) (f : Flags → Flags) : Micro s (updateFlags f t) := h.regs _

theorem fetchByte (h : Micro s t) : Micro s (fetchByte t).2 := (h.memRead _).incPc

theorem pushPc (h : Micro s t) : Micro s (pushPc t) := (h.push _).push _

theorem vectorFetch (h : Micro s t) (v : Word) : Micro s (vectorFetch v t) :=
  .hidden (.setPc (.memRead (.hidden ((h.memRead v).updateFlags fun f => { f with i := true })
    (fun h => { h with nmiPending := h.nmiPending && v != nmiVector }) rfl) (v + 1)) _)
    (fun h => { h with intDue := false }) rfl

theorem enterHandler (h : Micro s t) (b : Bool) : Micro s (enterHandler b t) := (h.pushPc.push _).vectorFetch _

theorem interruptSequence (h : Micro s t) : Micro s (interruptSequence t) :=
  ((h.dummyRead _).dummyRead _).enterHandler _

theorem returnFromInterrupt (h : Micro s t) : Micro s (returnFromInterrupt t) :=
  .setPc (h.pull.updateFlags _).pull.poll.pull _

theorem resetStackCycle (h : Micro s t) : Micro s (resetStackCycle t) := (h.dummyRead _).regs _

theorem resetSequence (h : Micro s t) : Micro s (resetSequence t) :=
  .hidden (.setPc (.memRead (((h.dummyRead _).dummyRead _).resetStackCycle.resetStackCycle.resetStackCycle.memRead
    resetVector |>.updateFlags fun f => { f with i := true }) (resetVector + 1)) _)
    (fun h => { h with rstPending := false, jammed := false, intDue := false }) rfl

theorem idle (h : Micro s t) : Micro s (idle t) := h.endCycle

theorem oamPair (h : Micro s t) (p i : Byte) : Micro s (oamPair p i t) := (h.memRead _).memWrite _ _

theorem oamCopy (h : Micro s t) (p : Byte) : ∀ n, Micro s (oamCopy p n t)
  | 0 => h
  | n + 1 => (oamCopy h p n).oamPair _ _

theorem dmaAlign (h : Micro s t) : Micro s (dmaAlign t) := by
  unfold Machine.dmaAlign
  split
  · exact h.idle
  · exact h

theorem oamDma (h : Micro s t) : Micro s (oamDma t) := (h.idle.dmaAlign.oamCopy _ 256).dmaDone

theorem runDma (h : Micro s t) : Micro s (runDma t) := by
  unfold Machine.runDma
  split
  · exact h.oamDma
  · exact h

theorem fixCycle (h : Micro s t) (always : Bool) (base : Word) (index : Byte) :
    Micro s (fixCycle always base index t) := by
  unfold Machine.fixCycle
  split
  · exact h.dummyRead _
  · exact h

theorem zpPointer (h : Micro s t) (p : Byte) : Micro s (zpPointer p t).2 := (h.memRead _).memRead _

theorem addrZp (h : Micro s t) (nn : Byte) : Micro s (addrZp nn t).2 := h

theorem addrAbs (h : Micro s t) (addr : Word) : Micro s (addrAbs addr t).2 := h

theorem addrZpIndexed (h : Micro s t) (index : Regs → Byte) (nn : Byte) : Micro s (addrZpIndexed index nn t).2 :=
  h.dummyRead _

theorem addrAbsIndexed (h : Micro s t) (always : Bool) (index : Regs → Byte) (addr : Word) :
    Micro s (addrAbsIndexed always index addr t).2 := h.fixCycle _ _ _

theorem addrIzx (h : Micro s t) (nn : Byte) : Micro s (addrIzx nn t).2 := (h.dummyRead _).zpPointer _

theorem addrIzy (h : Micro s t) (always : Bool) (nn : Byte) : Micro s (addrIzy always nn t).2 :=
  (h.zpPointer _).fixCycle _ _ _

theorem implied (h : Micro s t) (op : Regs → Regs) : Micro s (implied op t) := (h.poll.dummyRead _).regs _

theorem immediate (h : Micro s t) (op : Byte → Regs → Regs) (nn : Byte) : Micro s (immediate op nn t) := h.regs _

theorem classR {addr : AddrFn} (h : Micro s (addr t).2) (op : Byte → Regs → Regs) : Micro s (classR op addr t) :=
  (h.poll.memRead _).regs _

theorem classW {addr : AddrFn} (h : Micro s (addr t).2) (val : Regs → Byte) : Micro s (classW val addr t) :=
  h.poll.memWrite _ _

theorem classM {addr : AddrFn} (h : Micro s (addr t).2) (op : Byte → Regs → Byte × Regs) :
    Micro s (classM op addr t) := by
  unfold Machine.classM
  exact ((((h.memRead _).memWrite _ _).poll).memWrite _ _).regs _

theorem shStore (h : Micro s t) (src : Regs → Byte) (base : Word) (index : Byte) :
    Micro s (shStore src base index t) := (h.fixCycle _ _ _).poll.memWrite _ _

theorem branch (h : Micro s t) (cond : Flags → Bool) (oo : Byte) : Micro s (branch cond oo t) := by
  unfold Machine.branch
  dsimp only
  split
  · split
    · exact (h.dummyRead _).regs _
    · exact ((((h.dummyRead _).regs _).poll).dummyRead _).regs _
  · exact h

theorem halt (h : Micro s t) : Micro s (halt t) := h.hidden _ rfl

end Micro

/-- An outcome that is a next state on a path from `s`. -/
def Runs (s : State) (o : Outcome) : Prop := ∃ t, o = .next t ∧ Micro s t

theorem runs {s t : State} (h : Micro s t) : Runs s (.next t) := ⟨t, rfl, h⟩

/-- EVERY INSTRUCTION answers a next state, on a path of pieces. -/
theorem exec_runs (i : Instr) (s : State) : Runs s (exec i s) := by
  have h : Micro s s := .refl
  cases i with
  | brk _ => exact runs (h.enterHandler _)
  | oraIzx _ => exact runs (.classR (h.addrIzx _) _)
  | jam02 => exact runs (h.halt)
  | sloIzx _ => exact runs (.classM (h.addrIzx _) _)
  | nopZp04 _ => exact runs (.classR (h.addrZp _) _)
  | oraZp _ => exact runs (.classR (h.addrZp _) _)
  | aslZp _ => exact runs (.classM (h.addrZp _) _)
  | sloZp _ => exact runs (.classM (h.addrZp _) _)
  | php => exact runs ((h.dummyRead _).poll.push _)
  | oraImm _ => exact runs (h.immediate _ _)
  | aslA => exact runs (h.implied _)
  | ancImm0B _ => exact runs (h.immediate _ _)
  | nopAbs0C _ => exact runs (.classR (h.addrAbs _) _)
  | oraAbs _ => exact runs (.classR (h.addrAbs _) _)
  | aslAbs _ => exact runs (.classM (h.addrAbs _) _)
  | sloAbs _ => exact runs (.classM (h.addrAbs _) _)
  | bpl _ => exact runs (h.branch _ _)
  | oraIzy _ => exact runs (.classR (h.addrIzy _ _) _)
  | jam12 => exact runs (h.halt)
  | sloIzy _ => exact runs (.classM (h.addrIzy _ _) _)
  | nopZpx14 _ => exact runs (.classR (h.addrZpIndexed _ _) _)
  | oraZpx _ => exact runs (.classR (h.addrZpIndexed _ _) _)
  | aslZpx _ => exact runs (.classM (h.addrZpIndexed _ _) _)
  | sloZpx _ => exact runs (.classM (h.addrZpIndexed _ _) _)
  | clc => exact runs (h.implied _)
  | oraAby _ => exact runs (.classR (h.addrAbsIndexed _ _ _) _)
  | nopImp1A => exact runs (h.implied _)
  | sloAby _ => exact runs (.classM (h.addrAbsIndexed _ _ _) _)
  | nopAbx1C _ => exact runs (.classR (h.addrAbsIndexed _ _ _) _)
  | oraAbx _ => exact runs (.classR (h.addrAbsIndexed _ _ _) _)
  | aslAbx _ => exact runs (.classM (h.addrAbsIndexed _ _ _) _)
  | sloAbx _ => exact runs (.classM (h.addrAbsIndexed _ _ _) _)
  | jsrAbs _ => exact runs (((h.dummyRead _).pushPc.poll.memRead _).setPc _)
  | andIzx _ => exact runs (.classR (h.addrIzx _) _)
  | jam22 => exact runs (h.halt)
  | rlaIzx _ => exact runs (.classM (h.addrIzx _) _)
  | bitZp _ => exact runs (.classR (h.addrZp _) _)
  | andZp _ => exact runs (.classR (h.addrZp _) _)
  | rolZp _ => exact runs (.classM (h.addrZp _) _)
  | rlaZp _ => exact runs (.classM (h.addrZp _) _)
  | plp => exact runs (((((h.dummyRead _).dummyRead _).poll).pull).updateFlags _)
  | andImm _ => exact runs (h.immediate _ _)
  | rolA => exact runs (h.implied _)
  | ancImm2B _ => exact runs (h.immediate _ _)
  | bitAbs _ => exact runs (.classR (h.addrAbs _) _)
  | andAbs _ => exact runs (.classR (h.addrAbs _) _)
  | rolAbs _ => exact runs (.classM (h.addrAbs _) _)
  | rlaAbs _ => exact runs (.classM (h.addrAbs _) _)
  | bmi _ => exact runs (h.branch _ _)
  | andIzy _ => exact runs (.classR (h.addrIzy _ _) _)
  | jam32 => exact runs (h.halt)
  | rlaIzy _ => exact runs (.classM (h.addrIzy _ _) _)
  | nopZpx34 _ => exact runs (.classR (h.addrZpIndexed _ _) _)
  | andZpx _ => exact runs (.classR (h.addrZpIndexed _ _) _)
  | rolZpx _ => exact runs (.classM (h.addrZpIndexed _ _) _)
  | rlaZpx _ => exact runs (.classM (h.addrZpIndexed _ _) _)
  | sec => exact runs (h.implied _)
  | andAby _ => exact runs (.classR (h.addrAbsIndexed _ _ _) _)
  | nopImp3A => exact runs (h.implied _)
  | rlaAby _ => exact runs (.classM (h.addrAbsIndexed _ _ _) _)
  | nopAbx3C _ => exact runs (.classR (h.addrAbsIndexed _ _ _) _)
  | andAbx _ => exact runs (.classR (h.addrAbsIndexed _ _ _) _)
  | rolAbx _ => exact runs (.classM (h.addrAbsIndexed _ _ _) _)
  | rlaAbx _ => exact runs (.classM (h.addrAbsIndexed _ _ _) _)
  | rti => exact runs (((h.dummyRead _).dummyRead _).returnFromInterrupt)
  | eorIzx _ => exact runs (.classR (h.addrIzx _) _)
  | jam42 => exact runs (h.halt)
  | sreIzx _ => exact runs (.classM (h.addrIzx _) _)
  | nopZp44 _ => exact runs (.classR (h.addrZp _) _)
  | eorZp _ => exact runs (.classR (h.addrZp _) _)
  | lsrZp _ => exact runs (.classM (h.addrZp _) _)
  | sreZp _ => exact runs (.classM (h.addrZp _) _)
  | pha => exact runs ((h.dummyRead _).poll.push _)
  | eorImm _ => exact runs (h.immediate _ _)
  | lsrA => exact runs (h.implied _)
  | alrImm _ => exact runs (h.immediate _ _)
  | jmpAbs _ => exact runs (h.setPc _)
  | eorAbs _ => exact runs (.classR (h.addrAbs _) _)
  | lsrAbs _ => exact runs (.classM (h.addrAbs _) _)
  | sreAbs _ => exact runs (.classM (h.addrAbs _) _)
  | bvc _ => exact runs (h.branch _ _)
  | eorIzy _ => exact runs (.classR (h.addrIzy _ _) _)
  | jam52 => exact runs (h.halt)
  | sreIzy _ => exact runs (.classM (h.addrIzy _ _) _)
  | nopZpx54 _ => exact runs (.classR (h.addrZpIndexed _ _) _)
  | eorZpx _ => exact runs (.classR (h.addrZpIndexed _ _) _)
  | lsrZpx _ => exact runs (.classM (h.addrZpIndexed _ _) _)
  | sreZpx _ => exact runs (.classM (h.addrZpIndexed _ _) _)
  | cli => exact runs (h.implied _)
  | eorAby _ => exact runs (.classR (h.addrAbsIndexed _ _ _) _)
  | nopImp5A => exact runs (h.implied _)
  | sreAby _ => exact runs (.classM (h.addrAbsIndexed _ _ _) _)
  | nopAbx5C _ => exact runs (.classR (h.addrAbsIndexed _ _ _) _)
  | eorAbx _ => exact runs (.classR (h.addrAbsIndexed _ _ _) _)
  | lsrAbx _ => exact runs (.classM (h.addrAbsIndexed _ _ _) _)
  | sreAbx _ => exact runs (.classM (h.addrAbsIndexed _ _ _) _)
  | rts => exact runs (((((h.dummyRead _).dummyRead _).pull.pull).poll.dummyRead _).setPc _)
  | adcIzx _ => exact runs (.classR (h.addrIzx _) _)
  | jam62 => exact runs (h.halt)
  | rraIzx _ => exact runs (.classM (h.addrIzx _) _)
  | nopZp64 _ => exact runs (.classR (h.addrZp _) _)
  | adcZp _ => exact runs (.classR (h.addrZp _) _)
  | rorZp _ => exact runs (.classM (h.addrZp _) _)
  | rraZp _ => exact runs (.classM (h.addrZp _) _)
  | pla => exact runs (((((h.dummyRead _).dummyRead _).poll).pull).regs _)
  | adcImm _ => exact runs (h.immediate _ _)
  | rorA => exact runs (h.implied _)
  | arrImm _ => exact runs (h.immediate _ _)
  | jmpInd _ => exact runs (((h.memRead _).poll.memRead _).setPc _)
  | adcAbs _ => exact runs (.classR (h.addrAbs _) _)
  | rorAbs _ => exact runs (.classM (h.addrAbs _) _)
  | rraAbs _ => exact runs (.classM (h.addrAbs _) _)
  | bvs _ => exact runs (h.branch _ _)
  | adcIzy _ => exact runs (.classR (h.addrIzy _ _) _)
  | jam72 => exact runs (h.halt)
  | rraIzy _ => exact runs (.classM (h.addrIzy _ _) _)
  | nopZpx74 _ => exact runs (.classR (h.addrZpIndexed _ _) _)
  | adcZpx _ => exact runs (.classR (h.addrZpIndexed _ _) _)
  | rorZpx _ => exact runs (.classM (h.addrZpIndexed _ _) _)
  | rraZpx _ => exact runs (.classM (h.addrZpIndexed _ _) _)
  | sei => exact runs (h.implied _)
  | adcAby _ => exact runs (.classR (h.addrAbsIndexed _ _ _) _)
  | nopImp7A => exact runs (h.implied _)
  | rraAby _ => exact runs (.classM (h.addrAbsIndexed _ _ _) _)
  | nopAbx7C _ => exact runs (.classR (h.addrAbsIndexed _ _ _) _)
  | adcAbx _ => exact runs (.classR (h.addrAbsIndexed _ _ _) _)
  | rorAbx _ => exact runs (.classM (h.addrAbsIndexed _ _ _) _)
  | rraAbx _ => exact runs (.classM (h.addrAbsIndexed _ _ _) _)
  | nopImm80 _ => exact runs (h.immediate _ _)
  | staIzx _ => exact runs (.classW (h.addrIzx _) _)
  | nopImm82 _ => exact runs (h.immediate _ _)
  | saxIzx _ => exact runs (.classW (h.addrIzx _) _)
  | styZp _ => exact runs (.classW (h.addrZp _) _)
  | staZp _ => exact runs (.classW (h.addrZp _) _)
  | stxZp _ => exact runs (.classW (h.addrZp _) _)
  | saxZp _ => exact runs (.classW (h.addrZp _) _)
  | dey => exact runs (h.implied _)
  | nopImm89 _ => exact runs (h.immediate _ _)
  | txa => exact runs (h.implied _)
  | aneImm _ => exact runs (h.immediate _ _)
  | styAbs _ => exact runs (.classW (h.addrAbs _) _)
  | staAbs _ => exact runs (.classW (h.addrAbs _) _)
  | stxAbs _ => exact runs (.classW (h.addrAbs _) _)
  | saxAbs _ => exact runs (.classW (h.addrAbs _) _)
  | bcc _ => exact runs (h.branch _ _)
  | staIzy _ => exact runs (.classW (h.addrIzy _ _) _)
  | jam92 => exact runs (h.halt)
  | shaIzy _ => exact runs ((h.zpPointer _).shStore _ _ _)
  | styZpx _ => exact runs (.classW (h.addrZpIndexed _ _) _)
  | staZpx _ => exact runs (.classW (h.addrZpIndexed _ _) _)
  | stxZpy _ => exact runs (.classW (h.addrZpIndexed _ _) _)
  | saxZpy _ => exact runs (.classW (h.addrZpIndexed _ _) _)
  | tya => exact runs (h.implied _)
  | staAby _ => exact runs (.classW (h.addrAbsIndexed _ _ _) _)
  | txs => exact runs (h.implied _)
  | tasAby _ => exact runs ((h.shStore _ _ _).regs _)
  | shyAbx _ => exact runs (h.shStore _ _ _)
  | staAbx _ => exact runs (.classW (h.addrAbsIndexed _ _ _) _)
  | shxAby _ => exact runs (h.shStore _ _ _)
  | shaAby _ => exact runs (h.shStore _ _ _)
  | ldyImm _ => exact runs (h.immediate _ _)
  | ldaIzx _ => exact runs (.classR (h.addrIzx _) _)
  | ldxImm _ => exact runs (h.immediate _ _)
  | laxIzx _ => exact runs (.classR (h.addrIzx _) _)
  | ldyZp _ => exact runs (.classR (h.addrZp _) _)
  | ldaZp _ => exact runs (.classR (h.addrZp _) _)
  | ldxZp _ => exact runs (.classR (h.addrZp _) _)
  | laxZp _ => exact runs (.classR (h.addrZp _) _)
  | tay => exact runs (h.implied _)
  | ldaImm _ => exact runs (h.immediate _ _)
  | tax => exact runs (h.implied _)
  | lxaImm _ => exact runs (h.immediate _ _)
  | ldyAbs _ => exact runs (.classR (h.addrAbs _) _)
  | ldaAbs _ => exact runs (.classR (h.addrAbs _) _)
  | ldxAbs _ => exact runs (.classR (h.addrAbs _) _)
  | laxAbs _ => exact runs (.classR (h.addrAbs _) _)
  | bcs _ => exact runs (h.branch _ _)
  | ldaIzy _ => exact runs (.classR (h.addrIzy _ _) _)
  | jamB2 => exact runs (h.halt)
  | laxIzy _ => exact runs (.classR (h.addrIzy _ _) _)
  | ldyZpx _ => exact runs (.classR (h.addrZpIndexed _ _) _)
  | ldaZpx _ => exact runs (.classR (h.addrZpIndexed _ _) _)
  | ldxZpy _ => exact runs (.classR (h.addrZpIndexed _ _) _)
  | laxZpy _ => exact runs (.classR (h.addrZpIndexed _ _) _)
  | clv => exact runs (h.implied _)
  | ldaAby _ => exact runs (.classR (h.addrAbsIndexed _ _ _) _)
  | tsx => exact runs (h.implied _)
  | lasAby _ => exact runs (.classR (h.addrAbsIndexed _ _ _) _)
  | ldyAbx _ => exact runs (.classR (h.addrAbsIndexed _ _ _) _)
  | ldaAbx _ => exact runs (.classR (h.addrAbsIndexed _ _ _) _)
  | ldxAby _ => exact runs (.classR (h.addrAbsIndexed _ _ _) _)
  | laxAby _ => exact runs (.classR (h.addrAbsIndexed _ _ _) _)
  | cpyImm _ => exact runs (h.immediate _ _)
  | cmpIzx _ => exact runs (.classR (h.addrIzx _) _)
  | nopImmC2 _ => exact runs (h.immediate _ _)
  | dcpIzx _ => exact runs (.classM (h.addrIzx _) _)
  | cpyZp _ => exact runs (.classR (h.addrZp _) _)
  | cmpZp _ => exact runs (.classR (h.addrZp _) _)
  | decZp _ => exact runs (.classM (h.addrZp _) _)
  | dcpZp _ => exact runs (.classM (h.addrZp _) _)
  | iny => exact runs (h.implied _)
  | cmpImm _ => exact runs (h.immediate _ _)
  | dex => exact runs (h.implied _)
  | sbxImm _ => exact runs (h.immediate _ _)
  | cpyAbs _ => exact runs (.classR (h.addrAbs _) _)
  | cmpAbs _ => exact runs (.classR (h.addrAbs _) _)
  | decAbs _ => exact runs (.classM (h.addrAbs _) _)
  | dcpAbs _ => exact runs (.classM (h.addrAbs _) _)
  | bne _ => exact runs (h.branch _ _)
  | cmpIzy _ => exact runs (.classR (h.addrIzy _ _) _)
  | jamD2 => exact runs (h.halt)
  | dcpIzy _ => exact runs (.classM (h.addrIzy _ _) _)
  | nopZpxD4 _ => exact runs (.classR (h.addrZpIndexed _ _) _)
  | cmpZpx _ => exact runs (.classR (h.addrZpIndexed _ _) _)
  | decZpx _ => exact runs (.classM (h.addrZpIndexed _ _) _)
  | dcpZpx _ => exact runs (.classM (h.addrZpIndexed _ _) _)
  | cld => exact runs (h.implied _)
  | cmpAby _ => exact runs (.classR (h.addrAbsIndexed _ _ _) _)
  | nopImpDA => exact runs (h.implied _)
  | dcpAby _ => exact runs (.classM (h.addrAbsIndexed _ _ _) _)
  | nopAbxDC _ => exact runs (.classR (h.addrAbsIndexed _ _ _) _)
  | cmpAbx _ => exact runs (.classR (h.addrAbsIndexed _ _ _) _)
  | decAbx _ => exact runs (.classM (h.addrAbsIndexed _ _ _) _)
  | dcpAbx _ => exact runs (.classM (h.addrAbsIndexed _ _ _) _)
  | cpxImm _ => exact runs (h.immediate _ _)
  | sbcIzx _ => exact runs (.classR (h.addrIzx _) _)
  | nopImmE2 _ => exact runs (h.immediate _ _)
  | iscIzx _ => exact runs (.classM (h.addrIzx _) _)
  | cpxZp _ => exact runs (.classR (h.addrZp _) _)
  | sbcZp _ => exact runs (.classR (h.addrZp _) _)
  | incZp _ => exact runs (.classM (h.addrZp _) _)
  | iscZp _ => exact runs (.classM (h.addrZp _) _)
  | inx => exact runs (h.implied _)
  | sbcImm _ => exact runs (h.immediate _ _)
  | nop => exact runs (h.implied _)
  | sbcImmEB _ => exact runs (h.immediate _ _)
  | cpxAbs _ => exact runs (.classR (h.addrAbs _) _)
  | sbcAbs _ => exact runs (.classR (h.addrAbs _) _)
  | incAbs _ => exact runs (.classM (h.addrAbs _) _)
  | iscAbs _ => exact runs (.classM (h.addrAbs _) _)
  | beq _ => exact runs (h.branch _ _)
  | sbcIzy _ => exact runs (.classR (h.addrIzy _ _) _)
  | jamF2 => exact runs (h.halt)
  | iscIzy _ => exact runs (.classM (h.addrIzy _ _) _)
  | nopZpxF4 _ => exact runs (.classR (h.addrZpIndexed _ _) _)
  | sbcZpx _ => exact runs (.classR (h.addrZpIndexed _ _) _)
  | incZpx _ => exact runs (.classM (h.addrZpIndexed _ _) _)
  | iscZpx _ => exact runs (.classM (h.addrZpIndexed _ _) _)
  | sed => exact runs (h.implied _)
  | sbcAby _ => exact runs (.classR (h.addrAbsIndexed _ _ _) _)
  | nopImpFA => exact runs (h.implied _)
  | iscAby _ => exact runs (.classM (h.addrAbsIndexed _ _ _) _)
  | nopAbxFC _ => exact runs (.classR (h.addrAbsIndexed _ _ _) _)
  | sbcAbx _ => exact runs (.classR (h.addrAbsIndexed _ _ _) _)
  | incAbx _ => exact runs (.classM (h.addrAbsIndexed _ _ _) _)
  | iscAbx _ => exact runs (.classM (h.addrAbsIndexed _ _ _) _)

/-! ## Steps -/

theorem endCycle_remain (s : State) : (endCycle s).mach.apu.dmc.remain = s.mach.apu.dmc.remain := by
  show ((s.mach.apu.units s.mach.hidden.cycles).dmc).remain = _
  have h1 : ∀ a : Apu, a.sequencer.dmc = a.dmc := fun a => by
    unfold Apu.sequencer
    dsimp only
    split
    · split <;> rfl
    · unfold Apu.sequencerAction
      split <;> rfl
  unfold Apu.units Apu.timers
  dsimp only
  rw [h1]
  split
  · unfold Dmc.clock
    split
    · unfold Dmc.output
      dsimp only
      split
      · split <;> rfl
      · rfl
    · rfl
  · rfl

theorem busRead_remain (a : Word) (s : State) : (busRead a s).2.mach.apu.dmc.remain = s.mach.apu.dmc.remain := by
  unfold busRead
  cases region a <;> rfl

theorem micro_dmcStall {s : State} (h : s.mach.apu.dmc.request = true) : Micro s (dmcStall s) := by
  have hr : s.mach.apu.dmc.remain ≠ 0 := by
    intro h0
    simp [Dmc.request, h0] at h
  refine .fetched (.memRead (((Micro.refl.idle).idle).idle) _) _ ?_
  show (endCycle (busRead _ _).2).mach.apu.dmc.remain ≠ 0
  rw [endCycle_remain, busRead_remain]
  show (endCycle (endCycle (endCycle s))).mach.apu.dmc.remain ≠ 0
  rw [endCycle_remain, endCycle_remain, endCycle_remain]
  exact hr

theorem fetchThird_micro {s t : State} (h : Micro s t) (op : Byte) : Micro s (fetchThird op t).2 := by
  unfold fetchThird
  split
  · exact h
  · split
    · exact h.poll.fetchByte
    · exact h.fetchByte

theorem fetchOpcode_micro {s t : State} (h : Micro s t) : Micro s (fetchOpcode t).2 := by
  unfold fetchOpcode
  dsimp only
  split
  · exact h.fetchByte.poll
  · exact h.fetchByte

theorem fetchInstr_micro {s t : State} (h : Micro s t) : Micro s (fetchInstr t).state := by
  unfold fetchInstr
  dsimp only
  split
  · exact fetchOpcode_micro h
  · exact (fetchOpcode_micro h).fetchByte
  · exact fetchThird_micro (fetchOpcode_micro h).fetchByte _

/-- What is fetched always decodes (30_encoding.md R158). -/
theorem fetchInstr_decodes (s : State) : ∃ i, decode (fetchInstr s).bytes = .ok (i, []) := by
  unfold fetchInstr
  dsimp only
  split
  · exact ⟨_, decode_one ‹_› _⟩
  · exact ⟨_, decode_two ‹_› _ _⟩
  · rename_i h1 h2
    exact ⟨_, decode_three ((opcodeLength_cases _).resolve_left h1 |>.resolve_left h2) _ _ _⟩

/-- An instruction's step runs what was decoded, and then the OAM DMA it asked for. -/
theorem instructionStep_runs (s : State) : Runs s (instructionStep s) := by
  obtain ⟨i, hi⟩ := fetchInstr_decodes s
  obtain ⟨t, ht, hm⟩ := exec_runs i (fetchInstr s).state
  unfold instructionStep
  rw [hi]
  dsimp only
  rw [ht]
  exact runs (((fetchInstr_micro .refl).trans hm).runDma)

/-- EVERY STEP answers a next state, on a path of pieces. -/
theorem step_runs (s : State) : Runs s (step s) := by
  unfold step
  split
  · exact runs Micro.refl.resetSequence
  · rename_i h
    refine runs (micro_dmcStall ?_)
    unfold stepKind at h
    split at h
    · cases h
    · split at h
      · assumption
      · split at h
        · cases h
        · split at h <;> cases h
  · exact runs Micro.refl.idle
  · exact runs Micro.refl.interruptSequence
  · exact instructionStep_runs s

end Sys2Proof.Machine
end

