-- ==== Sys2Proof/Laws/PpuInvariant.lean ====
section
/-! SUPPORT. What PPU dots, PPU register accesses and mapper writes keep: the counters' ranges and the canonical memories. -/

namespace Sys2Proof.Machine

/-- The parts of the PPU that the invariant names, as most stages of a dot leave them. -/
structure SameCounters (p q : Ppu) : Prop where
  scanline     : q.scanline = p.scanline
  dot          : q.dot = p.dot
  sprCountNext : q.sprCountNext = p.sprCountNext
  fbWork       : q.fbWork = p.fbWork

theorem SameCounters.refl (p : Ppu) : SameCounters p p := ⟨rfl, rfl, rfl, rfl⟩

theorem SameCounters.trans {p q r : Ppu} (h : SameCounters p q) (g : SameCounters q r) : SameCounters p r :=
  ⟨g.scanline.trans h.scanline, g.dot.trans h.dot, g.sprCountNext.trans h.sprCountNext, g.fbWork.trans h.fbWork⟩

theorem SameCounters.ppuOk {p q : Ppu} (h : SameCounters p q) (ok : PpuOk p) : PpuOk q :=
  ⟨h.scanline ▸ ok.scanline, h.dot ▸ ok.dot, h.sprCountNext ▸ ok.sprCountNext⟩

/-- The work frame buffer is in canonical form, inside its size. -/
def FbOk (m : Cells 9) : Prop := Cells.wf m = true ∧ Cells.below m 61440 = true

theorem statusFlags_same (p : Ppu) : SameCounters p (statusFlags p) := by
  unfold statusFlags
  split
  · exact ⟨rfl, rfl, rfl, rfl⟩
  · split <;> exact ⟨rfl, rfl, rfl, rfl⟩

theorem bgShift_same (p : Ppu) : SameCounters p (bgShift p) := by
  unfold bgShift
  split <;> exact ⟨rfl, rfl, rfl, rfl⟩

theorem bgReload_same (p : Ppu) : SameCounters p (bgReload p) := by
  unfold bgReload
  split <;> exact ⟨rfl, rfl, rfl, rfl⟩

theorem bgFetch_same (w : PpuWorld) (p : Ppu) (mp : Mapper) : SameCounters p (bgFetch w p mp).1 := by
  unfold bgFetch
  split
  · split <;> exact ⟨rfl, rfl, rfl, rfl⟩
  · split <;> exact ⟨rfl, rfl, rfl, rfl⟩

theorem scrollUpdate_same (p : Ppu) : SameCounters p (scrollUpdate p) := by
  unfold scrollUpdate
  split
  · exact ⟨rfl, rfl, rfl, rfl⟩
  · split
    · exact ⟨rfl, rfl, rfl, rfl⟩
    · split <;> exact ⟨rfl, rfl, rfl, rfl⟩

theorem spriteFetch_same (w : PpuWorld) (p : Ppu) (mp : Mapper) : SameCounters p (spriteFetch w p mp).1 := by
  unfold spriteFetch
  split
  · dsimp only
    split <;> exact ⟨rfl, rfl, rfl, rfl⟩
  · exact ⟨rfl, rfl, rfl, rfl⟩

theorem drawPixel_ppuOk (vmem : VideoMem) {p : Ppu} (ok : PpuOk p) : PpuOk (drawPixel vmem p) := by
  unfold drawPixel
  split <;> exact ⟨ok.scanline, ok.dot, ok.sprCountNext⟩

theorem drawPixel_fbOk (vmem : VideoMem) {p : Ppu} (ok : FbOk p.fbWork) : FbOk (drawPixel vmem p).fbWork := by
  unfold drawPixel
  split
  · rename_i h
    simp only [Bool.and_eq_true, decide_eq_true_eq] at h
    exact ⟨Cells.write_wf ok.1 _ _, Cells.write_below ok.2 (by omega) _⟩
  · exact ok

theorem findSprites_length (oam : Memory) (l h : Nat) : ∀ fuel n room, (findSprites oam l h fuel n room).1.length ≤ room
  | 0, _, _ => Nat.zero_le _
  | _ + 1, _, 0 => Nat.le_refl _
  | fuel + 1, n, room + 1 => by
    unfold findSprites
    split
    · exact Nat.succ_le_succ (findSprites_length oam l h fuel (n + 1) room)
    · exact findSprites_length oam l h fuel (n + 1) (room + 1)

theorem spriteEvaluation_ppuOk (oam : Memory) {p : Ppu} (ok : PpuOk p) : PpuOk (spriteEvaluation oam p) := by
  unfold spriteEvaluation
  split
  · split
    · exact ⟨ok.scanline, ok.dot, findSprites_length _ _ _ _ _ _⟩
    · exact ⟨ok.scanline, ok.dot, Nat.zero_le _⟩
  · exact ok

theorem spriteEvaluation_fbWork (oam : Memory) (p : Ppu) : (spriteEvaluation oam p).fbWork = p.fbWork := by
  unfold spriteEvaluation
  split
  · split <;> rfl
  · rfl

theorem advance_ppuOk {p : Ppu} (ok : PpuOk p) : PpuOk (advance p) := by
  unfold advance
  split
  · exact ⟨Nat.zero_le _, Nat.zero_le _, ok.sprCountNext⟩
  · rename_i h
    split
    · exact ⟨ok.scanline, by show p.dot + 1 ≤ 340; omega, ok.sprCountNext⟩
    · refine ⟨?_, Nat.zero_le _, ok.sprCountNext⟩
      show p.scanline + 1 ≤ 261
      have := ok.scanline
      unfold Ppu.lastDot at h
      simp only [Bool.and_eq_true, Bool.or_eq_true, decide_eq_true_eq, not_and, not_or] at h
      omega

theorem advance_fbWork (p : Ppu) : (advance p).fbWork = p.fbWork := by
  unfold advance
  split
  · rfl
  · split <;> rfl

/-- The dot's rendering work before the pixel. -/
theorem renderDot_cases (w : PpuWorld) (p : Ppu) (mp : Mapper) :
    ∃ q, SameCounters p q ∧ ((renderDot w p mp).1 = drawPixel w.vmem q ∨
      (renderDot w p mp).1 = spriteEvaluation w.vmem.oam (drawPixel w.vmem q)) := by
  unfold renderDot
  split
  · refine ⟨_, ?_, .inr rfl⟩
    exact ((((bgShift_same p).trans (bgReload_same _)).trans (bgFetch_same w _ mp)).trans (scrollUpdate_same _)).trans
      (spriteFetch_same w _ _)
  · exact ⟨{ p with sprLatch := none }, ⟨rfl, rfl, rfl, rfl⟩, .inl rfl⟩

theorem renderDot_ppuOk (w : PpuWorld) {p : Ppu} (mp : Mapper) (ok : PpuOk p) : PpuOk (renderDot w p mp).1 := by
  obtain ⟨q, hq, h | h⟩ := renderDot_cases w p mp
  · rw [h]; exact drawPixel_ppuOk _ (hq.ppuOk ok)
  · rw [h]; exact spriteEvaluation_ppuOk _ (drawPixel_ppuOk _ (hq.ppuOk ok))

theorem renderDot_fbOk (w : PpuWorld) {p : Ppu} (mp : Mapper) (ok : FbOk p.fbWork) : FbOk (renderDot w p mp).1.fbWork := by
  obtain ⟨q, hq, h | h⟩ := renderDot_cases w p mp
  · rw [h]; exact drawPixel_fbOk _ (hq.fbWork.symm ▸ ok)
  · rw [h, spriteEvaluation_fbWork]; exact drawPixel_fbOk _ (hq.fbWork.symm ▸ ok)

/-! ## Mappers -/

theorem ppuAddr_ok {mp : Mapper} (cycles : Nat) (a : PpuAddr) (ok : MapperOk mp) : MapperOk (mp.ppuAddr cycles a) := by
  cases mp with
  | mmc3 r => unfold Mapper.ppuAddr; dsimp only; split <;> exact True.intro
  | mmc1 r => exact ok
  | _ => exact True.intro

theorem mmc1_write_ok {r : Mmc1} (cycles : Nat) (a : Word) (v : Byte) (ok : r.count ≤ 4) :
    (r.write cycles a v).count ≤ 4 := by
  unfold Mmc1.write
  split
  · exact ok
  · split
    · exact Nat.zero_le _
    · dsimp only
      split
      · show r.count + 1 ≤ 4; omega
      · split <;> exact Nat.zero_le _

theorem writeRegister_ok {mp : Mapper} (cycles : Nat) (a : Word) (v : Byte) (ok : MapperOk mp) :
    MapperOk (mp.writeRegister cycles a v) := by
  cases mp with
  | mmc1 r => exact mmc1_write_ok cycles a v ok
  | _ => exact True.intro

theorem bgFetch_mapperOk (w : PpuWorld) (p : Ppu) {mp : Mapper} (ok : MapperOk mp) : MapperOk (bgFetch w p mp).2 := by
  unfold bgFetch
  split
  · split <;> first | exact ppuAddr_ok _ _ ok | exact ok
  · split <;> first | exact ppuAddr_ok _ _ ok | exact ok

theorem spriteFetch_mapperOk (w : PpuWorld) (p : Ppu) {mp : Mapper} (ok : MapperOk mp) :
    MapperOk (spriteFetch w p mp).2 := by
  unfold spriteFetch
  split
  · dsimp only
    split <;> first | exact ppuAddr_ok _ _ ok | exact ok
  · exact ok

theorem renderDot_mapperOk (w : PpuWorld) (p : Ppu) {mp : Mapper} (ok : MapperOk mp) : MapperOk (renderDot w p mp).2 := by
  unfold renderDot
  split
  · exact spriteFetch_mapperOk _ _ (bgFetch_mapperOk _ _ ok)
  · exact ok

/-- What one dot keeps. -/
structure DotOk (o : DotOut) : Prop where
  ppu    : PpuOk o.ppu
  fbWork : FbOk o.ppu.fbWork
  mapper : MapperOk o.mapper

theorem ppuTick_ok (w : PpuWorld) {o : DotOut} (ok : DotOk o) : DotOk (ppuTick w o) where
  ppu := advance_ppuOk (renderDot_ppuOk w _ ((statusFlags_same _).ppuOk ok.ppu))
  fbWork := by
    show FbOk (advance _).fbWork
    rw [advance_fbWork]
    exact renderDot_fbOk w _ ((statusFlags_same o.ppu).fbWork.symm ▸ ok.fbWork)
  mapper := renderDot_mapperOk w _ ok.mapper

/-! ## Register accesses -/

theorem vramIncrement_same (p : Ppu) (mp : Mapper) (cycles : Nat) : SameCounters p (vramIncrement p mp cycles).1 := by
  unfold vramIncrement
  split <;> exact ⟨rfl, rfl, rfl, rfl⟩

theorem vramIncrement_keeps {p q : Ppu} (h : SameCounters p q) (mp : Mapper) (cycles : Nat) :
    SameCounters p (vramIncrement q mp cycles).1 := h.trans (vramIncrement_same q mp cycles)

theorem vramIncrement_mapperOk (p : Ppu) {mp : Mapper} (cycles : Nat) (ok : MapperOk mp) :
    MapperOk (vramIncrement p mp cycles).2 := by
  unfold vramIncrement
  split
  · exact ok
  · exact ppuAddr_ok _ _ ok

theorem ppuRegRead_same (w : PpuWorld) (r : BitVec 3) (p : Ppu) (mp : Mapper) :
    SameCounters p (ppuRegRead w r p mp).2.1 := by
  unfold ppuRegRead
  split
  · exact ⟨rfl, rfl, rfl, rfl⟩
  · exact ⟨rfl, rfl, rfl, rfl⟩
  · refine vramIncrement_keeps ?_ _ _
    exact ⟨rfl, rfl, rfl, rfl⟩
  · exact ⟨rfl, rfl, rfl, rfl⟩

theorem ppuRegRead_mapperOk (w : PpuWorld) (r : BitVec 3) (p : Ppu) {mp : Mapper} (ok : MapperOk mp) :
    MapperOk (ppuRegRead w r p mp).2.2 := by
  unfold ppuRegRead
  split
  · exact ok
  · exact ok
  · exact vramIncrement_mapperOk _ _ (ppuAddr_ok _ _ ok)
  · exact ok

theorem ppuRegWrite_same (w : PpuWorld) (r : BitVec 3) (v : Byte) (p : Ppu) (mp : Mapper) :
    SameCounters p (ppuRegWrite w r v p mp).ppu := by
  unfold ppuRegWrite
  dsimp only
  split
  · split <;> exact ⟨rfl, rfl, rfl, rfl⟩
  · split <;> exact ⟨rfl, rfl, rfl, rfl⟩
  · exact ⟨rfl, rfl, rfl, rfl⟩
  · split <;> exact ⟨rfl, rfl, rfl, rfl⟩
  · split
    · exact ⟨rfl, rfl, rfl, rfl⟩
    · split <;> exact ⟨rfl, rfl, rfl, rfl⟩
  · split
    · exact ⟨rfl, rfl, rfl, rfl⟩
    · split <;> exact ⟨rfl, rfl, rfl, rfl⟩
  · refine vramIncrement_keeps ?_ _ _
    exact ⟨rfl, rfl, rfl, rfl⟩
  · exact ⟨rfl, rfl, rfl, rfl⟩

theorem ppuRegWrite_mapperOk (w : PpuWorld) (r : BitVec 3) (v : Byte) (p : Ppu) {mp : Mapper} (ok : MapperOk mp) :
    MapperOk (ppuRegWrite w r v p mp).mapper := by
  unfold ppuRegWrite
  dsimp only
  split
  · split <;> exact ok
  · split <;> exact ok
  · exact ok
  · split <;> exact ok
  · split
    · exact ok
    · split <;> exact ok
  · split
    · exact ok
    · split
      · exact ppuAddr_ok _ _ ok
      · exact ok
  · refine vramIncrement_mapperOk _ _ ?_
    split
    · exact ok
    · exact ppuAddr_ok _ _ ok
  · exact ok

/-- The memories the PPU bus reaches are canonical and inside their sizes. -/
structure PpuMemsOk (v : VideoMem) (c : Cart) : Prop where
  chrRam   : Memory.wf c.chrRam = true ∧ Cells.below c.chrRam 8192 = true
  cartVram : Memory.wf c.cartVram = true ∧ Cells.below c.cartVram 2048 = true
  oam      : Memory.wf v.oam = true ∧ Cells.below v.oam 256 = true
  palette  : Cells.wf v.palette = true ∧ Cells.below v.palette 32 = true
  ciram    : Memory.wf v.ciram = true ∧ Cells.below v.ciram 2048 = true
  oamBits  : oamPlain v.oam = true
  palCells : palettePlain v.palette = true

theorem oamPlain_write {m : Memory} (h : oamPlain m = true) (i v : Byte) :
    oamPlain (Cells.write m i.toNat (oamByte i v)) = true := by
  refine List.all_eq_true.mpr fun e he => ?_
  rcases Cells.mem_write he with he | he
  · subst he
    dsimp only
    by_cases h2 : i.toNat % 4 = 2
    · have : i &&& 3 = 2 := by
        apply BitVec.eq_of_toNat_eq
        rw [BitVec.toNat_and]
        exact (Nat.and_two_pow_sub_one_eq_mod i.toNat 2).trans h2
      unfold oamByte
      rw [if_pos this, BitVec.and_assoc]
      simp
    · simp [h2]
  · exact List.all_eq_true.mp h e he

theorem palIndex_palIndex (a : Nat) : palIndex (palIndex a) = palIndex a := by
  unfold palIndex
  dsimp only
  split <;> split <;> omega

theorem palettePlain_write {m : Cells 6} (h : palettePlain m = true) (a : Nat) (v : BitVec 6) :
    palettePlain (Cells.write m (palIndex a) v) = true := by
  refine List.all_eq_true.mpr fun e he => ?_
  rcases Cells.mem_write he with he | he
  · simp [he, palIndex_palIndex]
  · exact List.all_eq_true.mp h e he

theorem chrWrite_ok {v : VideoMem} {c : Cart} (image : Option Image) (mp : Mapper) {a : PpuAddr} (ha : a < 0x2000)
    (b : Byte) (ok : PpuMemsOk v c) : PpuMemsOk v (chrWrite image c mp a b) := by
  unfold chrWrite
  split
  · exact { ok with chrRam := ⟨Cells.write_wf ok.chrRam.1 _ _, Cells.write_below ok.chrRam.2 (by bv_omega) _⟩ }
  · split
    · refine { ok with chrRam := ⟨Cells.write_wf ok.chrRam.1 _ _, Cells.write_below ok.chrRam.2 ?_ _⟩ }
      have : (‹Image›).chrSize = 8192 := by unfold Image.chrSize; rw [if_pos ‹_›]
      rw [this]
      exact Nat.mod_lt _ (by decide)
    · exact ok

theorem mirroring_page_lt (m : Mirroring) {n : Nat} (h : n < 4) : m.page n < 4 := by
  cases m <;> simp only [Mirroring.page] <;> omega

theorem ntWrite_ok {w : PpuWorld} (mp : Mapper) (a : PpuAddr) (b : Byte) (ok : PpuMemsOk w.vmem w.cart) :
    PpuMemsOk (ntWrite w mp a b).1 (ntWrite w mp a b).2 := by
  unfold ntWrite ntPage
  dsimp only
  have hp := mirroring_page_lt (mapperMirroring w.image mp) (n := a.toNat / 1024 % 4) (Nat.mod_lt _ (by decide))
  split
  · exact { ok with ciram := ⟨Cells.write_wf ok.ciram.1 _ _, Cells.write_below ok.ciram.2 (by omega) _⟩ }
  · exact { ok with cartVram := ⟨Cells.write_wf ok.cartVram.1 _ _, Cells.write_below ok.cartVram.2 (by omega) _⟩ }

theorem palIndex_lt (a : Nat) : palIndex a < 32 := by
  unfold palIndex
  dsimp only
  split <;> omega

theorem ppuPoke_ok {w : PpuWorld} (mp : Mapper) (a : PpuAddr) (b : Byte) (ok : PpuMemsOk w.vmem w.cart) :
    PpuMemsOk (ppuPoke w mp a b).1 (ppuPoke w mp a b).2 := by
  unfold ppuPoke
  split
  · exact chrWrite_ok _ _ ‹_› _ ok
  · split
    · exact ntWrite_ok _ _ _ ok
    · exact { ok with
        palette := ⟨Cells.write_wf ok.palette.1 _ _, Cells.write_below ok.palette.2 (palIndex_lt _) _⟩
        palCells := palettePlain_write ok.palCells _ _ }

theorem ppuRegWrite_memsOk {w : PpuWorld} (r : BitVec 3) (v : Byte) (p : Ppu) (mp : Mapper)
    (ok : PpuMemsOk w.vmem w.cart) : PpuMemsOk (ppuRegWrite w r v p mp).vmem (ppuRegWrite w r v p mp).cart := by
  unfold ppuRegWrite
  dsimp only
  split
  · split <;> exact ok
  · split <;> exact ok
  · exact ok
  · split
    · exact ok
    · exact { ok with
        oam := ⟨Cells.write_wf ok.oam.1 _ _, Cells.write_below ok.oam.2 (BitVec.isLt _) _⟩
        oamBits := oamPlain_write ok.oamBits _ _ }
  · split
    · exact ok
    · split <;> exact ok
  · split
    · exact ok
    · split <;> exact ok
  · show PpuMemsOk (ite _ _ _ : VideoMem × Cart).1 (ite _ _ _ : VideoMem × Cart).2
    split
    · exact ok
    · exact ppuPoke_ok _ _ _ ok
  · exact ok

end Sys2Proof.Machine
end

