-- ==== Sys2Proof/Laws/Invariant.lean ====
section
/-! SUPPORT. The ranges of the invariant along a path of pieces, and where an OAM DMA request can stand. -/

namespace Sys2Proof.Machine

/-- The invariant but for the DMA request, which stands inside a step. -/
structure CoreOk (m : MachineState) : Prop where
  memories : MemoriesOk m
  ppu      : PpuOk m.ppu
  apu      : ApuOk m.apu
  mapper   : MapperOk m.mapper

theorem State.Inv.core {s : State} (h : s.Inv) : CoreOk s.mach := ⟨h.memories, h.ppu, h.apu, h.mapper⟩

theorem MemoriesOk.ppuMems {m : MachineState} (h : MemoriesOk m) : PpuMemsOk m.vmem m.cart :=
  ⟨h.chrRam, h.cartVram, h.oam, h.palette, h.ciram, h.oamBits, h.palCells⟩

theorem coreOk_endCycle {s : State} (ok : CoreOk s.mach) : CoreOk (endCycle s).mach := by
  have hd : DotOk (threeDots s) :=
    ppuTick_ok _ (ppuTick_ok _ (ppuTick_ok _ ⟨ok.ppu, ok.memories.fbWork, ok.mapper⟩))
  refine ⟨{ ok.memories with fbWork := hd.fbWork }, hd.ppu, ?_, hd.mapper⟩
  refine { units_ok (s.mach.hidden.cycles) ok.apu with rsAcc := resamplerNext_lt ?_ ?_ }
  · have := Config.sampleRateLessOne.isLt
    unfold Config.sampleRate Config.resamplerModulus
    omega
  · exact (units_ok _ ok.apu).rsAcc

theorem coreOk_busRead {s : State} (a : Word) (ok : CoreOk s.mach) : CoreOk (busRead a s).2.mach := by
  have same : ∀ {p : Ppu}, SameCounters s.mach.ppu p → PpuOk p ∧ FbOk p.fbWork := fun h =>
    ⟨h.ppuOk ok.ppu, h.fbWork.symm ▸ ok.memories.fbWork⟩
  unfold busRead
  cases region a with
  | ppuReg r =>
    have h := same (ppuRegRead_same s.ppuWorld r s.mach.ppu s.mach.mapper)
    exact ⟨{ ok.memories with fbWork := h.2 }, h.1, ok.apu, ppuRegRead_mapperOk s.ppuWorld r s.mach.ppu ok.mapper⟩
  | apuStatus => exact ⟨{ ok.memories with }, ok.ppu, statusRead_ok ok.apu, ok.mapper⟩
  | _ => exact ⟨{ ok.memories with }, ok.ppu, ok.apu, ok.mapper⟩

theorem coreOk_busWrite {s : State} (a : Word) (v : Byte) (ok : CoreOk s.mach) : CoreOk (busWrite a v s).mach := by
  unfold busWrite
  cases hr : region a with
  | workRam i =>
    refine ⟨{ ok.memories with ram := ⟨Cells.write_wf ok.memories.ram.1 _ _, Cells.write_below ok.memories.ram.2 ?_ _⟩ },
      ok.ppu, ok.apu, ok.mapper⟩
    exact (region_workRam_lt hr).2
  | ppuReg r =>
    have h := ppuRegWrite_same s.ppuWorld r v s.mach.ppu s.mach.mapper
    have hm := ppuRegWrite_memsOk (w := s.ppuWorld) r v s.mach.ppu s.mach.mapper ok.memories.ppuMems
    refine ⟨⟨ok.memories.ram, ?_, hm.chrRam, hm.cartVram, hm.oam, hm.palette, hm.ciram,
      h.fbWork.symm ▸ ok.memories.fbWork, hm.oamBits, hm.palCells⟩, h.ppuOk ok.ppu, ok.apu, ppuRegWrite_mapperOk _ r v _ ok.mapper⟩
    show Memory.wf (ppuRegWrite _ _ _ _ _).cart.prgRam = true ∧ Cells.below (ppuRegWrite _ _ _ _ _).cart.prgRam 8192 = true
    rw [ppuRegWrite_prgRam]
    exact ok.memories.prgRam
  | apuChannel r => exact ⟨{ ok.memories with }, ok.ppu, apuWrite_ok _ _ _ ok.apu, ok.mapper⟩
  | apuStatus => exact ⟨{ ok.memories with }, ok.ppu, apuWrite_ok s.mach.hidden.cycles 0x15 v ok.apu, ok.mapper⟩
  | port2 => exact ⟨{ ok.memories with }, ok.ppu, apuWrite_ok s.mach.hidden.cycles 0x17 v ok.apu, ok.mapper⟩
  | cartridge =>
    show CoreOk { s.mach with openBus := v, cart := (mapperCpuWrite _ _ _ _ _ _).1,
                              mapper := (mapperCpuWrite _ _ _ _ _ _).2 }
    unfold mapperCpuWrite
    split
    · exact ⟨{ ok.memories with }, ok.ppu, ok.apu, ok.mapper⟩
    · split
      · exact ⟨{ ok.memories with }, ok.ppu, ok.apu, ok.mapper⟩
      · split
        · dsimp only
          split
          · refine ⟨{ ok.memories with
              prgRam := ⟨Cells.write_wf ok.memories.prgRam.1 _ _, Cells.write_below ok.memories.prgRam.2 ?_ _⟩ },
              ok.ppu, ok.apu, ok.mapper⟩
            bv_omega
          · exact ⟨{ ok.memories with }, ok.ppu, ok.apu, ok.mapper⟩
        · exact ⟨{ ok.memories with }, ok.ppu, ok.apu, writeRegister_ok _ _ _ ok.mapper⟩
  | _ => exact ⟨{ ok.memories with }, ok.ppu, ok.apu, ok.mapper⟩

theorem coreOk_dmcFetched {s : State} (b : Byte) (hr : s.mach.apu.dmc.remain ≠ 0) (ok : CoreOk s.mach) :
    CoreOk (dmcFetched b s).mach :=
  ⟨{ ok.memories with }, ok.ppu, .of ok.apu.noi (dmcFetched_ok b hr ok.apu.dmc) ok.apu.fc ok.apu.rsAcc, ok.mapper⟩

/-- Every path keeps the ranges. -/
theorem micro_coreOk {s t : State} (h : Micro s t) (ok : CoreOk s.mach) : CoreOk t.mach := by
  induction h with
  | refl => exact ok
  | endCycle _ ih => exact coreOk_endCycle ih
  | read _ a ih => exact coreOk_endCycle (coreOk_busRead a ih)
  | write _ a v ih => exact coreOk_endCycle (coreOk_busWrite a v ih)
  | regs _ f ih => exact ⟨{ ih.memories with }, ih.ppu, ih.apu, ih.mapper⟩
  | hidden _ f hc ih => exact ⟨{ ih.memories with }, ih.ppu, ih.apu, ih.mapper⟩
  | fetched _ b hr ih => exact coreOk_dmcFetched b hr ih
  | dmaDone _ ih => exact ⟨{ ih.memories with }, ih.ppu, ih.apu, ih.mapper⟩

/-! ## The DMA request -/

theorem dummyRead_dmaReq (a : Word) (s : State) : (dummyRead a s).mach.dmaReq = s.mach.dmaReq := busRead_dmaReq a s

theorem push_dmaReq (v : Byte) (s : State) : (push v s).mach.dmaReq = s.mach.dmaReq := by
  show (busWrite (stackAddr s) v s).mach.dmaReq = _
  rw [busWrite_dmaReq]
  have : (stackAddr s == 0x4014) = false := by
    rw [beq_eq_false_iff_ne]
    intro h
    have := congrArg hi h
    rw [show hi (stackAddr s) = 0x01 from hi_word _ _] at this
    exact absurd this (by decide)
  rw [this, Bool.or_false]

theorem runDma_dmaReq (s : State) : (runDma s).mach.dmaReq = false := by
  unfold runDma
  split
  · rfl
  · rename_i h
    simpa using h

theorem vectorFetch_dmaReq (v : Word) (s : State) : (vectorFetch v s).mach.dmaReq = s.mach.dmaReq := by
  unfold vectorFetch
  simp only [memRead_snd, updateHidden_dmaReq, setPc_dmaReq, updateFlags_dmaReq, dummyRead_dmaReq]

theorem interruptSequence_dmaReq (s : State) : (interruptSequence s).mach.dmaReq = s.mach.dmaReq := by
  unfold interruptSequence enterHandler pushPc
  dsimp only
  rw [vectorFetch_dmaReq, push_dmaReq, push_dmaReq, push_dmaReq, dummyRead_dmaReq, dummyRead_dmaReq]

theorem resetStackCycle_dmaReq (s : State) : (resetStackCycle s).mach.dmaReq = s.mach.dmaReq := by
  unfold resetStackCycle
  simp only [updateRegs_dmaReq, dummyRead_dmaReq]

theorem resetSequence_dmaReq (s : State) : (resetSequence s).mach.dmaReq = s.mach.dmaReq := by
  unfold resetSequence
  simp only [memRead_snd, updateHidden_dmaReq, setPc_dmaReq, updateFlags_dmaReq, dummyRead_dmaReq, resetStackCycle_dmaReq]

theorem dmcStall_dmaReq (s : State) : (dmcStall s).mach.dmaReq = s.mach.dmaReq := by
  unfold dmcStall idle
  simp only [memRead_snd, dmcFetched_dmaReq, dummyRead_dmaReq, endCycle_dmaReq]

theorem finish_dmaReq {o : Outcome} {t : State} (h : finish o = .next t) : t.mach.dmaReq = false := by
  cases o with
  | next s =>
    cases h
    exact runDma_dmaReq s
  | fault r => cases h
  | refused r => cases h

end Sys2Proof.Machine
end

