-- ==== Sys2Proof/Laws/PerInstr.lean ====
section
/-! SUPPORT. The family RoundTrip: of every instruction as syntax, one lemma per constructor. -/

namespace Sys2Proof.Laws.RoundTrip

/-- The instruction carries the operand bytes of its format, and the decoder reads it back from its encoding, whatever bytes
follow (30_encoding.md R150, R151, R155). -/
def Statement (i : Instr) : Prop :=
  i.wellFormed = true ∧ ∀ rest, decode (encode i ++ rest) = .ok (i, rest)

theorem oneByte {i : Instr} (op : Byte) (hop : opcodeOf i = op) (hw : i.wellFormed = true)
    (hl : opcodeLength op = 1) (ho : i.operands = []) (hd : decodeOp op 0 0 = i) : Statement i :=
  ⟨hw, fun rest => by
    rw [encode, ho, hop]
    exact (decode_one hl rest).trans (by rw [hd])⟩

theorem twoBytes {i : Instr} {l : Byte} (op : Byte) (hop : opcodeOf i = op) (hw : i.wellFormed = true)
    (hl : opcodeLength op = 2) (ho : i.operands = [l]) (hd : decodeOp op l 0 = i) : Statement i :=
  ⟨hw, fun rest => by
    rw [encode, ho, hop]
    exact (decode_two hl l rest).trans (by rw [hd])⟩

theorem threeBytes {i : Instr} {a : Word} (op : Byte) (hop : opcodeOf i = op) (hw : i.wellFormed = true)
    (hl : opcodeLength op = 3) (ho : i.operands = [lo a, hi a]) (hd : decodeOp op (lo a) (hi a) = i) : Statement i :=
  ⟨hw, fun rest => by
    rw [encode, ho, hop]
    exact (decode_three hl _ _ rest).trans (by rw [hd])⟩

theorem brk (pad : Byte) : Statement (.brk pad) := twoBytes 0x00#8 rfl rfl rfl rfl rfl

theorem oraIzx (nn : Byte) : Statement (.oraIzx nn) := twoBytes 0x01#8 rfl rfl rfl rfl rfl

theorem jam02 : Statement .jam02 := oneByte 0x02#8 rfl rfl rfl rfl rfl

theorem sloIzx (nn : Byte) : Statement (.sloIzx nn) := twoBytes 0x03#8 rfl rfl rfl rfl rfl

theorem nopZp04 (nn : Byte) : Statement (.nopZp04 nn) := twoBytes 0x04#8 rfl rfl rfl rfl rfl

theorem oraZp (nn : Byte) : Statement (.oraZp nn) := twoBytes 0x05#8 rfl rfl rfl rfl rfl

theorem aslZp (nn : Byte) : Statement (.aslZp nn) := twoBytes 0x06#8 rfl rfl rfl rfl rfl

theorem sloZp (nn : Byte) : Statement (.sloZp nn) := twoBytes 0x07#8 rfl rfl rfl rfl rfl

theorem php : Statement .php := oneByte 0x08#8 rfl rfl rfl rfl rfl

theorem oraImm (nn : Byte) : Statement (.oraImm nn) := twoBytes 0x09#8 rfl rfl rfl rfl rfl

theorem aslA : Statement .aslA := oneByte 0x0A#8 rfl rfl rfl rfl rfl

theorem ancImm0B (nn : Byte) : Statement (.ancImm0B nn) := twoBytes 0x0B#8 rfl rfl rfl rfl rfl

theorem nopAbs0C (addr : Word) : Statement (.nopAbs0C addr) :=
  threeBytes 0x0C#8 rfl rfl rfl rfl (congrArg Instr.nopAbs0C (word_hi_lo addr))

theorem oraAbs (addr : Word) : Statement (.oraAbs addr) :=
  threeBytes 0x0D#8 rfl rfl rfl rfl (congrArg Instr.oraAbs (word_hi_lo addr))

theorem aslAbs (addr : Word) : Statement (.aslAbs addr) :=
  threeBytes 0x0E#8 rfl rfl rfl rfl (congrArg Instr.aslAbs (word_hi_lo addr))

theorem sloAbs (addr : Word) : Statement (.sloAbs addr) :=
  threeBytes 0x0F#8 rfl rfl rfl rfl (congrArg Instr.sloAbs (word_hi_lo addr))

theorem bpl (oo : Byte) : Statement (.bpl oo) := twoBytes 0x10#8 rfl rfl rfl rfl rfl

theorem oraIzy (nn : Byte) : Statement (.oraIzy nn) := twoBytes 0x11#8 rfl rfl rfl rfl rfl

theorem jam12 : Statement .jam12 := oneByte 0x12#8 rfl rfl rfl rfl rfl

theorem sloIzy (nn : Byte) : Statement (.sloIzy nn) := twoBytes 0x13#8 rfl rfl rfl rfl rfl

theorem nopZpx14 (nn : Byte) : Statement (.nopZpx14 nn) := twoBytes 0x14#8 rfl rfl rfl rfl rfl

theorem oraZpx (nn : Byte) : Statement (.oraZpx nn) := twoBytes 0x15#8 rfl rfl rfl rfl rfl

theorem aslZpx (nn : Byte) : Statement (.aslZpx nn) := twoBytes 0x16#8 rfl rfl rfl rfl rfl

theorem sloZpx (nn : Byte) : Statement (.sloZpx nn) := twoBytes 0x17#8 rfl rfl rfl rfl rfl

theorem clc : Statement .clc := oneByte 0x18#8 rfl rfl rfl rfl rfl

theorem oraAby (addr : Word) : Statement (.oraAby addr) :=
  threeBytes 0x19#8 rfl rfl rfl rfl (congrArg Instr.oraAby (word_hi_lo addr))

theorem nopImp1A : Statement .nopImp1A := oneByte 0x1A#8 rfl rfl rfl rfl rfl

theorem sloAby (addr : Word) : Statement (.sloAby addr) :=
  threeBytes 0x1B#8 rfl rfl rfl rfl (congrArg Instr.sloAby (word_hi_lo addr))

theorem nopAbx1C (addr : Word) : Statement (.nopAbx1C addr) :=
  threeBytes 0x1C#8 rfl rfl rfl rfl (congrArg Instr.nopAbx1C (word_hi_lo addr))

theorem oraAbx (addr : Word) : Statement (.oraAbx addr) :=
  threeBytes 0x1D#8 rfl rfl rfl rfl (congrArg Instr.oraAbx (word_hi_lo addr))

theorem aslAbx (addr : Word) : Statement (.aslAbx addr) :=
  threeBytes 0x1E#8 rfl rfl rfl rfl (congrArg Instr.aslAbx (word_hi_lo addr))

theorem sloAbx (addr : Word) : Statement (.sloAbx addr) :=
  threeBytes 0x1F#8 rfl rfl rfl rfl (congrArg Instr.sloAbx (word_hi_lo addr))

theorem jsrAbs (addr : Word) : Statement (.jsrAbs addr) :=
  threeBytes 0x20#8 rfl rfl rfl rfl (congrArg Instr.jsrAbs (word_hi_lo addr))

theorem andIzx (nn : Byte) : Statement (.andIzx nn) := twoBytes 0x21#8 rfl rfl rfl rfl rfl

theorem jam22 : Statement .jam22 := oneByte 0x22#8 rfl rfl rfl rfl rfl

theorem rlaIzx (nn : Byte) : Statement (.rlaIzx nn) := twoBytes 0x23#8 rfl rfl rfl rfl rfl

theorem bitZp (nn : Byte) : Statement (.bitZp nn) := twoBytes 0x24#8 rfl rfl rfl rfl rfl

theorem andZp (nn : Byte) : Statement (.andZp nn) := twoBytes 0x25#8 rfl rfl rfl rfl rfl

theorem rolZp (nn : Byte) : Statement (.rolZp nn) := twoBytes 0x26#8 rfl rfl rfl rfl rfl

theorem rlaZp (nn : Byte) : Statement (.rlaZp nn) := twoBytes 0x27#8 rfl rfl rfl rfl rfl

theorem plp : Statement .plp := oneByte 0x28#8 rfl rfl rfl rfl rfl

theorem andImm (nn : Byte) : Statement (.andImm nn) := twoBytes 0x29#8 rfl rfl rfl rfl rfl

theorem rolA : Statement .rolA := oneByte 0x2A#8 rfl rfl rfl rfl rfl

theorem ancImm2B (nn : Byte) : Statement (.ancImm2B nn) := twoBytes 0x2B#8 rfl rfl rfl rfl rfl

theorem bitAbs (addr : Word) : Statement (.bitAbs addr) :=
  threeBytes 0x2C#8 rfl rfl rfl rfl (congrArg Instr.bitAbs (word_hi_lo addr))

theorem andAbs (addr : Word) : Statement (.andAbs addr) :=
  threeBytes 0x2D#8 rfl rfl rfl rfl (congrArg Instr.andAbs (word_hi_lo addr))

theorem rolAbs (addr : Word) : Statement (.rolAbs addr) :=
  threeBytes 0x2E#8 rfl rfl rfl rfl (congrArg Instr.rolAbs (word_hi_lo addr))

theorem rlaAbs (addr : Word) : Statement (.rlaAbs addr) :=
  threeBytes 0x2F#8 rfl rfl rfl rfl (congrArg Instr.rlaAbs (word_hi_lo addr))

theorem bmi (oo : Byte) : Statement (.bmi oo) := twoBytes 0x30#8 rfl rfl rfl rfl rfl

theorem andIzy (nn : Byte) : Statement (.andIzy nn) := twoBytes 0x31#8 rfl rfl rfl rfl rfl

theorem jam32 : Statement .jam32 := oneByte 0x32#8 rfl rfl rfl rfl rfl

theorem rlaIzy (nn : Byte) : Statement (.rlaIzy nn) := twoBytes 0x33#8 rfl rfl rfl rfl rfl

theorem nopZpx34 (nn : Byte) : Statement (.nopZpx34 nn) := twoBytes 0x34#8 rfl rfl rfl rfl rfl

theorem andZpx (nn : Byte) : Statement (.andZpx nn) := twoBytes 0x35#8 rfl rfl rfl rfl rfl

theorem rolZpx (nn : Byte) : Statement (.rolZpx nn) := twoBytes 0x36#8 rfl rfl rfl rfl rfl

theorem rlaZpx (nn : Byte) : Statement (.rlaZpx nn) := twoBytes 0x37#8 rfl rfl rfl rfl rfl

theorem sec : Statement .sec := oneByte 0x38#8 rfl rfl rfl rfl rfl

theorem andAby (addr : Word) : Statement (.andAby addr) :=
  threeBytes 0x39#8 rfl rfl rfl rfl (congrArg Instr.andAby (word_hi_lo addr))

theorem nopImp3A : Statement .nopImp3A := oneByte 0x3A#8 rfl rfl rfl rfl rfl

theorem rlaAby (addr : Word) : Statement (.rlaAby addr) :=
  threeBytes 0x3B#8 rfl rfl rfl rfl (congrArg Instr.rlaAby (word_hi_lo addr))

theorem nopAbx3C (addr : Word) : Statement (.nopAbx3C addr) :=
  threeBytes 0x3C#8 rfl rfl rfl rfl (congrArg Instr.nopAbx3C (word_hi_lo addr))

theorem andAbx (addr : Word) : Statement (.andAbx addr) :=
  threeBytes 0x3D#8 rfl rfl rfl rfl (congrArg Instr.andAbx (word_hi_lo addr))

theorem rolAbx (addr : Word) : Statement (.rolAbx addr) :=
  threeBytes 0x3E#8 rfl rfl rfl rfl (congrArg Instr.rolAbx (word_hi_lo addr))

theorem rlaAbx (addr : Word) : Statement (.rlaAbx addr) :=
  threeBytes 0x3F#8 rfl rfl rfl rfl (congrArg Instr.rlaAbx (word_hi_lo addr))

theorem rti : Statement .rti := oneByte 0x40#8 rfl rfl rfl rfl rfl

theorem eorIzx (nn : Byte) : Statement (.eorIzx nn) := twoBytes 0x41#8 rfl rfl rfl rfl rfl

theorem jam42 : Statement .jam42 := oneByte 0x42#8 rfl rfl rfl rfl rfl

theorem sreIzx (nn : Byte) : Statement (.sreIzx nn) := twoBytes 0x43#8 rfl rfl rfl rfl rfl

theorem nopZp44 (nn : Byte) : Statement (.nopZp44 nn) := twoBytes 0x44#8 rfl rfl rfl rfl rfl

theorem eorZp (nn : Byte) : Statement (.eorZp nn) := twoBytes 0x45#8 rfl rfl rfl rfl rfl

theorem lsrZp (nn : Byte) : Statement (.lsrZp nn) := twoBytes 0x46#8 rfl rfl rfl rfl rfl

theorem sreZp (nn : Byte) : Statement (.sreZp nn) := twoBytes 0x47#8 rfl rfl rfl rfl rfl

theorem pha : Statement .pha := oneByte 0x48#8 rfl rfl rfl rfl rfl

theorem eorImm (nn : Byte) : Statement (.eorImm nn) := twoBytes 0x49#8 rfl rfl rfl rfl rfl

theorem lsrA : Statement .lsrA := oneByte 0x4A#8 rfl rfl rfl rfl rfl

theorem alrImm (nn : Byte) : Statement (.alrImm nn) := twoBytes 0x4B#8 rfl rfl rfl rfl rfl

theorem jmpAbs (addr : Word) : Statement (.jmpAbs addr) :=
  threeBytes 0x4C#8 rfl rfl rfl rfl (congrArg Instr.jmpAbs (word_hi_lo addr))

theorem eorAbs (addr : Word) : Statement (.eorAbs addr) :=
  threeBytes 0x4D#8 rfl rfl rfl rfl (congrArg Instr.eorAbs (word_hi_lo addr))

theorem lsrAbs (addr : Word) : Statement (.lsrAbs addr) :=
  threeBytes 0x4E#8 rfl rfl rfl rfl (congrArg Instr.lsrAbs (word_hi_lo addr))

theorem sreAbs (addr : Word) : Statement (.sreAbs addr) :=
  threeBytes 0x4F#8 rfl rfl rfl rfl (congrArg Instr.sreAbs (word_hi_lo addr))

theorem bvc (oo : Byte) : Statement (.bvc oo) := twoBytes 0x50#8 rfl rfl rfl rfl rfl

theorem eorIzy (nn : Byte) : Statement (.eorIzy nn) := twoBytes 0x51#8 rfl rfl rfl rfl rfl

theorem jam52 : Statement .jam52 := oneByte 0x52#8 rfl rfl rfl rfl rfl

theorem sreIzy (nn : Byte) : Statement (.sreIzy nn) := twoBytes 0x53#8 rfl rfl rfl rfl rfl

theorem nopZpx54 (nn : Byte) : Statement (.nopZpx54 nn) := twoBytes 0x54#8 rfl rfl rfl rfl rfl

theorem eorZpx (nn : Byte) : Statement (.eorZpx nn) := twoBytes 0x55#8 rfl rfl rfl rfl rfl

theorem lsrZpx (nn : Byte) : Statement (.lsrZpx nn) := twoBytes 0x56#8 rfl rfl rfl rfl rfl

theorem sreZpx (nn : Byte) : Statement (.sreZpx nn) := twoBytes 0x57#8 rfl rfl rfl rfl rfl

theorem cli : Statement .cli := oneByte 0x58#8 rfl rfl rfl rfl rfl

theorem eorAby (addr : Word) : Statement (.eorAby addr) :=
  threeBytes 0x59#8 rfl rfl rfl rfl (congrArg Instr.eorAby (word_hi_lo addr))

theorem nopImp5A : Statement .nopImp5A := oneByte 0x5A#8 rfl rfl rfl rfl rfl

theorem sreAby (addr : Word) : Statement (.sreAby addr) :=
  threeBytes 0x5B#8 rfl rfl rfl rfl (congrArg Instr.sreAby (word_hi_lo addr))

theorem nopAbx5C (addr : Word) : Statement (.nopAbx5C addr) :=
  threeBytes 0x5C#8 rfl rfl rfl rfl (congrArg Instr.nopAbx5C (word_hi_lo addr))

theorem eorAbx (addr : Word) : Statement (.eorAbx addr) :=
  threeBytes 0x5D#8 rfl rfl rfl rfl (congrArg Instr.eorAbx (word_hi_lo addr))

theorem lsrAbx (addr : Word) : Statement (.lsrAbx addr) :=
  threeBytes 0x5E#8 rfl rfl rfl rfl (congrArg Instr.lsrAbx (word_hi_lo addr))

theorem sreAbx (addr : Word) : Statement (.sreAbx addr) :=
  threeBytes 0x5F#8 rfl rfl rfl rfl (congrArg Instr.sreAbx (word_hi_lo addr))

theorem rts : Statement .rts := oneByte 0x60#8 rfl rfl rfl rfl rfl

theorem adcIzx (nn : Byte) : Statement (.adcIzx nn) := twoBytes 0x61#8 rfl rfl rfl rfl rfl

theorem jam62 : Statement .jam62 := oneByte 0x62#8 rfl rfl rfl rfl rfl

theorem rraIzx (nn : Byte) : Statement (.rraIzx nn) := twoBytes 0x63#8 rfl rfl rfl rfl rfl

theorem nopZp64 (nn : Byte) : Statement (.nopZp64 nn) := twoBytes 0x64#8 rfl rfl rfl rfl rfl

theorem adcZp (nn : Byte) : Statement (.adcZp nn) := twoBytes 0x65#8 rfl rfl rfl rfl rfl

theorem rorZp (nn : Byte) : Statement (.rorZp nn) := twoBytes 0x66#8 rfl rfl rfl rfl rfl

theorem rraZp (nn : Byte) : Statement (.rraZp nn) := twoBytes 0x67#8 rfl rfl rfl rfl rfl

theorem pla : Statement .pla := oneByte 0x68#8 rfl rfl rfl rfl rfl

theorem adcImm (nn : Byte) : Statement (.adcImm nn) := twoBytes 0x69#8 rfl rfl rfl rfl rfl

theorem rorA : Statement .rorA := oneByte 0x6A#8 rfl rfl rfl rfl rfl

theorem arrImm (nn : Byte) : Statement (.arrImm nn) := twoBytes 0x6B#8 rfl rfl rfl rfl rfl

theorem jmpInd (addr : Word) : Statement (.jmpInd addr) :=
  threeBytes 0x6C#8 rfl rfl rfl rfl (congrArg Instr.jmpInd (word_hi_lo addr))

theorem adcAbs (addr : Word) : Statement (.adcAbs addr) :=
  threeBytes 0x6D#8 rfl rfl rfl rfl (congrArg Instr.adcAbs (word_hi_lo addr))

theorem rorAbs (addr : Word) : Statement (.rorAbs addr) :=
  threeBytes 0x6E#8 rfl rfl rfl rfl (congrArg Instr.rorAbs (word_hi_lo addr))

theorem rraAbs (addr : Word) : Statement (.rraAbs addr) :=
  threeBytes 0x6F#8 rfl rfl rfl rfl (congrArg Instr.rraAbs (word_hi_lo addr))

theorem bvs (oo : Byte) : Statement (.bvs oo) := twoBytes 0x70#8 rfl rfl rfl rfl rfl

theorem adcIzy (nn : Byte) : Statement (.adcIzy nn) := twoBytes 0x71#8 rfl rfl rfl rfl rfl

theorem jam72 : Statement .jam72 := oneByte 0x72#8 rfl rfl rfl rfl rfl

theorem rraIzy (nn : Byte) : Statement (.rraIzy nn) := twoBytes 0x73#8 rfl rfl rfl rfl rfl

theorem nopZpx74 (nn : Byte) : Statement (.nopZpx74 nn) := twoBytes 0x74#8 rfl rfl rfl rfl rfl

theorem adcZpx (nn : Byte) : Statement (.adcZpx nn) := twoBytes 0x75#8 rfl rfl rfl rfl rfl

theorem rorZpx (nn : Byte) : Statement (.rorZpx nn) := twoBytes 0x76#8 rfl rfl rfl rfl rfl

theorem rraZpx (nn : Byte) : Statement (.rraZpx nn) := twoBytes 0x77#8 rfl rfl rfl rfl rfl

theorem sei : Statement .sei := oneByte 0x78#8 rfl rfl rfl rfl rfl

theorem adcAby (addr : Word) : Statement (.adcAby addr) :=
  threeBytes 0x79#8 rfl rfl rfl rfl (congrArg Instr.adcAby (word_hi_lo addr))

theorem nopImp7A : Statement .nopImp7A := oneByte 0x7A#8 rfl rfl rfl rfl rfl

theorem rraAby (addr : Word) : Statement (.rraAby addr) :=
  threeBytes 0x7B#8 rfl rfl rfl rfl (congrArg Instr.rraAby (word_hi_lo addr))

theorem nopAbx7C (addr : Word) : Statement (.nopAbx7C addr) :=
  threeBytes 0x7C#8 rfl rfl rfl rfl (congrArg Instr.nopAbx7C (word_hi_lo addr))

theorem adcAbx (addr : Word) : Statement (.adcAbx addr) :=
  threeBytes 0x7D#8 rfl rfl rfl rfl (congrArg Instr.adcAbx (word_hi_lo addr))

theorem rorAbx (addr : Word) : Statement (.rorAbx addr) :=
  threeBytes 0x7E#8 rfl rfl rfl rfl (congrArg Instr.rorAbx (word_hi_lo addr))

theorem rraAbx (addr : Word) : Statement (.rraAbx addr) :=
  threeBytes 0x7F#8 rfl rfl rfl rfl (congrArg Instr.rraAbx (word_hi_lo addr))

theorem nopImm80 (nn : Byte) : Statement (.nopImm80 nn) := twoBytes 0x80#8 rfl rfl rfl rfl rfl

theorem staIzx (nn : Byte) : Statement (.staIzx nn) := twoBytes 0x81#8 rfl rfl rfl rfl rfl

theorem nopImm82 (nn : Byte) : Statement (.nopImm82 nn) := twoBytes 0x82#8 rfl rfl rfl rfl rfl

theorem saxIzx (nn : Byte) : Statement (.saxIzx nn) := twoBytes 0x83#8 rfl rfl rfl rfl rfl

theorem styZp (nn : Byte) : Statement (.styZp nn) := twoBytes 0x84#8 rfl rfl rfl rfl rfl

theorem staZp (nn : Byte) : Statement (.staZp nn) := twoBytes 0x85#8 rfl rfl rfl rfl rfl

theorem stxZp (nn : Byte) : Statement (.stxZp nn) := twoBytes 0x86#8 rfl rfl rfl rfl rfl

theorem saxZp (nn : Byte) : Statement (.saxZp nn) := twoBytes 0x87#8 rfl rfl rfl rfl rfl

theorem dey : Statement .dey := oneByte 0x88#8 rfl rfl rfl rfl rfl

theorem nopImm89 (nn : Byte) : Statement (.nopImm89 nn) := twoBytes 0x89#8 rfl rfl rfl rfl rfl

theorem txa : Statement .txa := oneByte 0x8A#8 rfl rfl rfl rfl rfl

theorem aneImm (nn : Byte) : Statement (.aneImm nn) := twoBytes 0x8B#8 rfl rfl rfl rfl rfl

theorem styAbs (addr : Word) : Statement (.styAbs addr) :=
  threeBytes 0x8C#8 rfl rfl rfl rfl (congrArg Instr.styAbs (word_hi_lo addr))

theorem staAbs (addr : Word) : Statement (.staAbs addr) :=
  threeBytes 0x8D#8 rfl rfl rfl rfl (congrArg Instr.staAbs (word_hi_lo addr))

theorem stxAbs (addr : Word) : Statement (.stxAbs addr) :=
  threeBytes 0x8E#8 rfl rfl rfl rfl (congrArg Instr.stxAbs (word_hi_lo addr))

theorem saxAbs (addr : Word) : Statement (.saxAbs addr) :=
  threeBytes 0x8F#8 rfl rfl rfl rfl (congrArg Instr.saxAbs (word_hi_lo addr))

theorem bcc (oo : Byte) : Statement (.bcc oo) := twoBytes 0x90#8 rfl rfl rfl rfl rfl

theorem staIzy (nn : Byte) : Statement (.staIzy nn) := twoBytes 0x91#8 rfl rfl rfl rfl rfl

theorem jam92 : Statement .jam92 := oneByte 0x92#8 rfl rfl rfl rfl rfl

theorem shaIzy (nn : Byte) : Statement (.shaIzy nn) := twoBytes 0x93#8 rfl rfl rfl rfl rfl

theorem styZpx (nn : Byte) : Statement (.styZpx nn) := twoBytes 0x94#8 rfl rfl rfl rfl rfl

theorem staZpx (nn : Byte) : Statement (.staZpx nn) := twoBytes 0x95#8 rfl rfl rfl rfl rfl

theorem stxZpy (nn : Byte) : Statement (.stxZpy nn) := twoBytes 0x96#8 rfl rfl rfl rfl rfl

theorem saxZpy (nn : Byte) : Statement (.saxZpy nn) := twoBytes 0x97#8 rfl rfl rfl rfl rfl

theorem tya : Statement .tya := oneByte 0x98#8 rfl rfl rfl rfl rfl

theorem staAby (addr : Word) : Statement (.staAby addr) :=
  threeBytes 0x99#8 rfl rfl rfl rfl (congrArg Instr.staAby (word_hi_lo addr))

theorem txs : Statement .txs := oneByte 0x9A#8 rfl rfl rfl rfl rfl

theorem tasAby (addr : Word) : Statement (.tasAby addr) :=
  threeBytes 0x9B#8 rfl rfl rfl rfl (congrArg Instr.tasAby (word_hi_lo addr))

theorem shyAbx (addr : Word) : Statement (.shyAbx addr) :=
  threeBytes 0x9C#8 rfl rfl rfl rfl (congrArg Instr.shyAbx (word_hi_lo addr))

theorem staAbx (addr : Word) : Statement (.staAbx addr) :=
  threeBytes 0x9D#8 rfl rfl rfl rfl (congrArg Instr.staAbx (word_hi_lo addr))

theorem shxAby (addr : Word) : Statement (.shxAby addr) :=
  threeBytes 0x9E#8 rfl rfl rfl rfl (congrArg Instr.shxAby (word_hi_lo addr))

theorem shaAby (addr : Word) : Statement (.shaAby addr) :=
  threeBytes 0x9F#8 rfl rfl rfl rfl (congrArg Instr.shaAby (word_hi_lo addr))

theorem ldyImm (nn : Byte) : Statement (.ldyImm nn) := twoBytes 0xA0#8 rfl rfl rfl rfl rfl

theorem ldaIzx (nn : Byte) : Statement (.ldaIzx nn) := twoBytes 0xA1#8 rfl rfl rfl rfl rfl

theorem ldxImm (nn : Byte) : Statement (.ldxImm nn) := twoBytes 0xA2#8 rfl rfl rfl rfl rfl

theorem laxIzx (nn : Byte) : Statement (.laxIzx nn) := twoBytes 0xA3#8 rfl rfl rfl rfl rfl

theorem ldyZp (nn : Byte) : Statement (.ldyZp nn) := twoBytes 0xA4#8 rfl rfl rfl rfl rfl

theorem ldaZp (nn : Byte) : Statement (.ldaZp nn) := twoBytes 0xA5#8 rfl rfl rfl rfl rfl

theorem ldxZp (nn : Byte) : Statement (.ldxZp nn) := twoBytes 0xA6#8 rfl rfl rfl rfl rfl

theorem laxZp (nn : Byte) : Statement (.laxZp nn) := twoBytes 0xA7#8 rfl rfl rfl rfl rfl

theorem tay : Statement .tay := oneByte 0xA8#8 rfl rfl rfl rfl rfl

theorem ldaImm (nn : Byte) : Statement (.ldaImm nn) := twoBytes 0xA9#8 rfl rfl rfl rfl rfl

theorem tax : Statement .tax := oneByte 0xAA#8 rfl rfl rfl rfl rfl

theorem lxaImm (nn : Byte) : Statement (.lxaImm nn) := twoBytes 0xAB#8 rfl rfl rfl rfl rfl

theorem ldyAbs (addr : Word) : Statement (.ldyAbs addr) :=
  threeBytes 0xAC#8 rfl rfl rfl rfl (congrArg Instr.ldyAbs (word_hi_lo addr))

theorem ldaAbs (addr : Word) : Statement (.ldaAbs addr) :=
  threeBytes 0xAD#8 rfl rfl rfl rfl (congrArg Instr.ldaAbs (word_hi_lo addr))

theorem ldxAbs (addr : Word) : Statement (.ldxAbs addr) :=
  threeBytes 0xAE#8 rfl rfl rfl rfl (congrArg Instr.ldxAbs (word_hi_lo addr))

theorem laxAbs (addr : Word) : Statement (.laxAbs addr) :=
  threeBytes 0xAF#8 rfl rfl rfl rfl (congrArg Instr.laxAbs (word_hi_lo addr))

theorem bcs (oo : Byte) : Statement (.bcs oo) := twoBytes 0xB0#8 rfl rfl rfl rfl rfl

theorem ldaIzy (nn : Byte) : Statement (.ldaIzy nn) := twoBytes 0xB1#8 rfl rfl rfl rfl rfl

theorem jamB2 : Statement .jamB2 := oneByte 0xB2#8 rfl rfl rfl rfl rfl

theorem laxIzy (nn : Byte) : Statement (.laxIzy nn) := twoBytes 0xB3#8 rfl rfl rfl rfl rfl

theorem ldyZpx (nn : Byte) : Statement (.ldyZpx nn) := twoBytes 0xB4#8 rfl rfl rfl rfl rfl

theorem ldaZpx (nn : Byte) : Statement (.ldaZpx nn) := twoBytes 0xB5#8 rfl rfl rfl rfl rfl

theorem ldxZpy (nn : Byte) : Statement (.ldxZpy nn) := twoBytes 0xB6#8 rfl rfl rfl rfl rfl

theorem laxZpy (nn : Byte) : Statement (.laxZpy nn) := twoBytes 0xB7#8 rfl rfl rfl rfl rfl

theorem clv : Statement .clv := oneByte 0xB8#8 rfl rfl rfl rfl rfl

theorem ldaAby (addr : Word) : Statement (.ldaAby addr) :=
  threeBytes 0xB9#8 rfl rfl rfl rfl (congrArg Instr.ldaAby (word_hi_lo addr))

theorem tsx : Statement .tsx := oneByte 0xBA#8 rfl rfl rfl rfl rfl

theorem lasAby (addr : Word) : Statement (.lasAby addr) :=
  threeBytes 0xBB#8 rfl rfl rfl rfl (congrArg Instr.lasAby (word_hi_lo addr))

theorem ldyAbx (addr : Word) : Statement (.ldyAbx addr) :=
  threeBytes 0xBC#8 rfl rfl rfl rfl (congrArg Instr.ldyAbx (word_hi_lo addr))

theorem ldaAbx (addr : Word) : Statement (.ldaAbx addr) :=
  threeBytes 0xBD#8 rfl rfl rfl rfl (congrArg Instr.ldaAbx (word_hi_lo addr))

theorem ldxAby (addr : Word) : Statement (.ldxAby addr) :=
  threeBytes 0xBE#8 rfl rfl rfl rfl (congrArg Instr.ldxAby (word_hi_lo addr))

theorem laxAby (addr : Word) : Statement (.laxAby addr) :=
  threeBytes 0xBF#8 rfl rfl rfl rfl (congrArg Instr.laxAby (word_hi_lo addr))

theorem cpyImm (nn : Byte) : Statement (.cpyImm nn) := twoBytes 0xC0#8 rfl rfl rfl rfl rfl

theorem cmpIzx (nn : Byte) : Statement (.cmpIzx nn) := twoBytes 0xC1#8 rfl rfl rfl rfl rfl

theorem nopImmC2 (nn : Byte) : Statement (.nopImmC2 nn) := twoBytes 0xC2#8 rfl rfl rfl rfl rfl

theorem dcpIzx (nn : Byte) : Statement (.dcpIzx nn) := twoBytes 0xC3#8 rfl rfl rfl rfl rfl

theorem cpyZp (nn : Byte) : Statement (.cpyZp nn) := twoBytes 0xC4#8 rfl rfl rfl rfl rfl

theorem cmpZp (nn : Byte) : Statement (.cmpZp nn) := twoBytes 0xC5#8 rfl rfl rfl rfl rfl

theorem decZp (nn : Byte) : Statement (.decZp nn) := twoBytes 0xC6#8 rfl rfl rfl rfl rfl

theorem dcpZp (nn : Byte) : Statement (.dcpZp nn) := twoBytes 0xC7#8 rfl rfl rfl rfl rfl

theorem iny : Statement .iny := oneByte 0xC8#8 rfl rfl rfl rfl rfl

theorem cmpImm (nn : Byte) : Statement (.cmpImm nn) := twoBytes 0xC9#8 rfl rfl rfl rfl rfl

theorem dex : Statement .dex := oneByte 0xCA#8 rfl rfl rfl rfl rfl

theorem sbxImm (nn : Byte) : Statement (.sbxImm nn) := twoBytes 0xCB#8 rfl rfl rfl rfl rfl

theorem cpyAbs (addr : Word) : Statement (.cpyAbs addr) :=
  threeBytes 0xCC#8 rfl rfl rfl rfl (congrArg Instr.cpyAbs (word_hi_lo addr))

theorem cmpAbs (addr : Word) : Statement (.cmpAbs addr) :=
  threeBytes 0xCD#8 rfl rfl rfl rfl (congrArg Instr.cmpAbs (word_hi_lo addr))

theorem decAbs (addr : Word) : Statement (.decAbs addr) :=
  threeBytes 0xCE#8 rfl rfl rfl rfl (congrArg Instr.decAbs (word_hi_lo addr))

theorem dcpAbs (addr : Word) : Statement (.dcpAbs addr) :=
  threeBytes 0xCF#8 rfl rfl rfl rfl (congrArg Instr.dcpAbs (word_hi_lo addr))

theorem bne (oo : Byte) : Statement (.bne oo) := twoBytes 0xD0#8 rfl rfl rfl rfl rfl

theorem cmpIzy (nn : Byte) : Statement (.cmpIzy nn) := twoBytes 0xD1#8 rfl rfl rfl rfl rfl

theorem jamD2 : Statement .jamD2 := oneByte 0xD2#8 rfl rfl rfl rfl rfl

theorem dcpIzy (nn : Byte) : Statement (.dcpIzy nn) := twoBytes 0xD3#8 rfl rfl rfl rfl rfl

theorem nopZpxD4 (nn : Byte) : Statement (.nopZpxD4 nn) := twoBytes 0xD4#8 rfl rfl rfl rfl rfl

theorem cmpZpx (nn : Byte) : Statement (.cmpZpx nn) := twoBytes 0xD5#8 rfl rfl rfl rfl rfl

theorem decZpx (nn : Byte) : Statement (.decZpx nn) := twoBytes 0xD6#8 rfl rfl rfl rfl rfl

theorem dcpZpx (nn : Byte) : Statement (.dcpZpx nn) := twoBytes 0xD7#8 rfl rfl rfl rfl rfl

theorem cld : Statement .cld := oneByte 0xD8#8 rfl rfl rfl rfl rfl

theorem cmpAby (addr : Word) : Statement (.cmpAby addr) :=
  threeBytes 0xD9#8 rfl rfl rfl rfl (congrArg Instr.cmpAby (word_hi_lo addr))

theorem nopImpDA : Statement .nopImpDA := oneByte 0xDA#8 rfl rfl rfl rfl rfl

theorem dcpAby (addr : Word) : Statement (.dcpAby addr) :=
  threeBytes 0xDB#8 rfl rfl rfl rfl (congrArg Instr.dcpAby (word_hi_lo addr))

theorem nopAbxDC (addr : Word) : Statement (.nopAbxDC addr) :=
  threeBytes 0xDC#8 rfl rfl rfl rfl (congrArg Instr.nopAbxDC (word_hi_lo addr))

theorem cmpAbx (addr : Word) : Statement (.cmpAbx addr) :=
  threeBytes 0xDD#8 rfl rfl rfl rfl (congrArg Instr.cmpAbx (word_hi_lo addr))

theorem decAbx (addr : Word) : Statement (.decAbx addr) :=
  threeBytes 0xDE#8 rfl rfl rfl rfl (congrArg Instr.decAbx (word_hi_lo addr))

theorem dcpAbx (addr : Word) : Statement (.dcpAbx addr) :=
  threeBytes 0xDF#8 rfl rfl rfl rfl (congrArg Instr.dcpAbx (word_hi_lo addr))

theorem cpxImm (nn : Byte) : Statement (.cpxImm nn) := twoBytes 0xE0#8 rfl rfl rfl rfl rfl

theorem sbcIzx (nn : Byte) : Statement (.sbcIzx nn) := twoBytes 0xE1#8 rfl rfl rfl rfl rfl

theorem nopImmE2 (nn : Byte) : Statement (.nopImmE2 nn) := twoBytes 0xE2#8 rfl rfl rfl rfl rfl

theorem iscIzx (nn : Byte) : Statement (.iscIzx nn) := twoBytes 0xE3#8 rfl rfl rfl rfl rfl

theorem cpxZp (nn : Byte) : Statement (.cpxZp nn) := twoBytes 0xE4#8 rfl rfl rfl rfl rfl

theorem sbcZp (nn : Byte) : Statement (.sbcZp nn) := twoBytes 0xE5#8 rfl rfl rfl rfl rfl

theorem incZp (nn : Byte) : Statement (.incZp nn) := twoBytes 0xE6#8 rfl rfl rfl rfl rfl

theorem iscZp (nn : Byte) : Statement (.iscZp nn) := twoBytes 0xE7#8 rfl rfl rfl rfl rfl

theorem inx : Statement .inx := oneByte 0xE8#8 rfl rfl rfl rfl rfl

theorem sbcImm (nn : Byte) : Statement (.sbcImm nn) := twoBytes 0xE9#8 rfl rfl rfl rfl rfl

theorem nop : Statement .nop := oneByte 0xEA#8 rfl rfl rfl rfl rfl

theorem sbcImmEB (nn : Byte) : Statement (.sbcImmEB nn) := twoBytes 0xEB#8 rfl rfl rfl rfl rfl

theorem cpxAbs (addr : Word) : Statement (.cpxAbs addr) :=
  threeBytes 0xEC#8 rfl rfl rfl rfl (congrArg Instr.cpxAbs (word_hi_lo addr))

theorem sbcAbs (addr : Word) : Statement (.sbcAbs addr) :=
  threeBytes 0xED#8 rfl rfl rfl rfl (congrArg Instr.sbcAbs (word_hi_lo addr))

theorem incAbs (addr : Word) : Statement (.incAbs addr) :=
  threeBytes 0xEE#8 rfl rfl rfl rfl (congrArg Instr.incAbs (word_hi_lo addr))

theorem iscAbs (addr : Word) : Statement (.iscAbs addr) :=
  threeBytes 0xEF#8 rfl rfl rfl rfl (congrArg Instr.iscAbs (word_hi_lo addr))

theorem beq (oo : Byte) : Statement (.beq oo) := twoBytes 0xF0#8 rfl rfl rfl rfl rfl

theorem sbcIzy (nn : Byte) : Statement (.sbcIzy nn) := twoBytes 0xF1#8 rfl rfl rfl rfl rfl

theorem jamF2 : Statement .jamF2 := oneByte 0xF2#8 rfl rfl rfl rfl rfl

theorem iscIzy (nn : Byte) : Statement (.iscIzy nn) := twoBytes 0xF3#8 rfl rfl rfl rfl rfl

theorem nopZpxF4 (nn : Byte) : Statement (.nopZpxF4 nn) := twoBytes 0xF4#8 rfl rfl rfl rfl rfl

theorem sbcZpx (nn : Byte) : Statement (.sbcZpx nn) := twoBytes 0xF5#8 rfl rfl rfl rfl rfl

theorem incZpx (nn : Byte) : Statement (.incZpx nn) := twoBytes 0xF6#8 rfl rfl rfl rfl rfl

theorem iscZpx (nn : Byte) : Statement (.iscZpx nn) := twoBytes 0xF7#8 rfl rfl rfl rfl rfl

theorem sed : Statement .sed := oneByte 0xF8#8 rfl rfl rfl rfl rfl

theorem sbcAby (addr : Word) : Statement (.sbcAby addr) :=
  threeBytes 0xF9#8 rfl rfl rfl rfl (congrArg Instr.sbcAby (word_hi_lo addr))

theorem nopImpFA : Statement .nopImpFA := oneByte 0xFA#8 rfl rfl rfl rfl rfl

theorem iscAby (addr : Word) : Statement (.iscAby addr) :=
  threeBytes 0xFB#8 rfl rfl rfl rfl (congrArg Instr.iscAby (word_hi_lo addr))

theorem nopAbxFC (addr : Word) : Statement (.nopAbxFC addr) :=
  threeBytes 0xFC#8 rfl rfl rfl rfl (congrArg Instr.nopAbxFC (word_hi_lo addr))

theorem sbcAbx (addr : Word) : Statement (.sbcAbx addr) :=
  threeBytes 0xFD#8 rfl rfl rfl rfl (congrArg Instr.sbcAbx (word_hi_lo addr))

theorem incAbx (addr : Word) : Statement (.incAbx addr) :=
  threeBytes 0xFE#8 rfl rfl rfl rfl (congrArg Instr.incAbx (word_hi_lo addr))

theorem iscAbx (addr : Word) : Statement (.iscAbx addr) :=
  threeBytes 0xFF#8 rfl rfl rfl rfl (congrArg Instr.iscAbx (word_hi_lo addr))

end Sys2Proof.Laws.RoundTrip
end

