-- ==== Sys2Proof/Laws/SpriteLatch.lean ====
section
/-! SUPPORT. The sprite latch at the end of a cycle is what `settledLatch` says: two dots settle it, whatever went before. -/

namespace Sys2Proof.Machine

/-! ## What the PPU reads depends on the banks alone -/

theorem chrOffset_banks (mp : Mapper) (size : Nat) (a : PpuAddr) :
    chrOffset mp.banks size a = chrOffset mp size a := by
  cases mp <;> rfl

theorem mapperMirroring_banks (image : Option Image) (mp : Mapper) :
    mapperMirroring image mp.banks = mapperMirroring image mp := by
  cases mp <;> rfl

theorem ppuPeek_banks (w : PpuWorld) (mp : Mapper) (mask : Byte) (a : PpuAddr) :
    ppuPeek w mp.banks mask a = ppuPeek w mp mask a := by
  unfold ppuPeek chrRead ntRead ntPage
  simp only [chrOffset_banks, mapperMirroring_banks]

theorem ppuPeek_congr (w : PpuWorld) {mp mq : Mapper} (h : mq.banks = mp.banks) (mask : Byte) (a : PpuAddr) :
    ppuPeek w mq mask a = ppuPeek w mp mask a := by
  rw [← ppuPeek_banks w mq, h, ppuPeek_banks]

/-! ## The stages of a dot -/

/-- What the sprite fetches read of the PPU, and the latch, as most stages of a dot leave them. -/
structure SameSprite (p q : Ppu) : Prop where
  ctrl         : q.ctrl = p.ctrl
  mask         : q.mask = p.mask
  scanline     : q.scanline = p.scanline
  dot          : q.dot = p.dot
  secOam       : q.secOam = p.secOam
  sprCountNext : q.sprCountNext = p.sprCountNext
  sprLatch     : q.sprLatch = p.sprLatch

theorem SameSprite.trans {p q r : Ppu} (h : SameSprite p q) (g : SameSprite q r) : SameSprite p r :=
  ⟨g.ctrl.trans h.ctrl, g.mask.trans h.mask, g.scanline.trans h.scanline, g.dot.trans h.dot, g.secOam.trans h.secOam,
    g.sprCountNext.trans h.sprCountNext, g.sprLatch.trans h.sprLatch⟩

theorem statusFlags_sprite (p : Ppu) : SameSprite p (statusFlags p) := by
  unfold statusFlags
  split
  · exact ⟨rfl, rfl, rfl, rfl, rfl, rfl, rfl⟩
  · split <;> exact ⟨rfl, rfl, rfl, rfl, rfl, rfl, rfl⟩

theorem bgShift_sprite (p : Ppu) : SameSprite p (bgShift p) := by
  unfold bgShift
  split <;> exact ⟨rfl, rfl, rfl, rfl, rfl, rfl, rfl⟩

theorem bgReload_sprite (p : Ppu) : SameSprite p (bgReload p) := by
  unfold bgReload
  split <;> exact ⟨rfl, rfl, rfl, rfl, rfl, rfl, rfl⟩

theorem bgFetch_sprite (w : PpuWorld) (p : Ppu) (mp : Mapper) : SameSprite p (bgFetch w p mp).1 := by
  unfold bgFetch
  split
  · split <;> exact ⟨rfl, rfl, rfl, rfl, rfl, rfl, rfl⟩
  · split <;> exact ⟨rfl, rfl, rfl, rfl, rfl, rfl, rfl⟩

theorem scrollUpdate_sprite (p : Ppu) : SameSprite p (scrollUpdate p) := by
  unfold scrollUpdate
  split
  · exact ⟨rfl, rfl, rfl, rfl, rfl, rfl, rfl⟩
  · split
    · exact ⟨rfl, rfl, rfl, rfl, rfl, rfl, rfl⟩
    · split <;> exact ⟨rfl, rfl, rfl, rfl, rfl, rfl, rfl⟩

theorem drawPixel_sprite (vmem : VideoMem) (p : Ppu) : SameSprite p (drawPixel vmem p) := by
  unfold drawPixel
  split <;> exact ⟨rfl, rfl, rfl, rfl, rfl, rfl, rfl⟩

theorem spriteEvaluation_latch (oam : Memory) (p : Ppu) : (spriteEvaluation oam p).sprLatch = p.sprLatch := by
  unfold spriteEvaluation
  split
  · split <;> rfl
  · rfl

theorem spriteEvaluation_counters (oam : Memory) (p : Ppu) :
    (spriteEvaluation oam p).scanline = p.scanline ∧ (spriteEvaluation oam p).dot = p.dot ∧
      (spriteEvaluation oam p).mask = p.mask := by
  unfold spriteEvaluation
  split
  · split <;> exact ⟨rfl, rfl, rfl⟩
  · exact ⟨rfl, rfl, rfl⟩

/-- The dots that fill or keep the latch: k = 5 and k = 6 of a slot. -/
def latchDot (p : Ppu) : Prop := 257 ≤ p.dot ∧ p.dot ≤ 320 ∧ ((p.dot - 1) % 8 = 5 ∨ (p.dot - 1) % 8 = 6)

/-- Everything a sprite fetch does to the latch and to what it is made of. -/
structure FetchLatch (w : PpuWorld) (p : Ppu) (mp : Mapper) (q : Ppu) : Prop where
  same   : SameSprite p { q with sprLatch := p.sprLatch }
  filled : latchDot p → (p.dot - 1) % 8 = 5 →
    q.sprLatch = some { addr := p.spriteAddr p.slotIndex, lo := ppuPeek w mp p.mask (p.spriteAddr p.slotIndex) }
  kept   : latchDot p → (p.dot - 1) % 8 = 6 → q.sprLatch = p.sprLatch
  empty  : ¬ latchDot p → q.sprLatch = none

theorem spriteFetch_latch (w : PpuWorld) (p : Ppu) (mp : Mapper) : FetchLatch w p mp (spriteFetch w p mp).1 := by
  unfold spriteFetch
  split
  · rename_i h
    simp only [Bool.and_eq_true, decide_eq_true_eq] at h
    dsimp only
    split
    all_goals
      refine ⟨⟨rfl, rfl, rfl, rfl, rfl, rfl, rfl⟩, ?_, ?_, ?_⟩ <;> intro h1
    all_goals
      first
        | exact fun _ => rfl
        | rfl
        | (intro h2; exfalso; simp_all)
        | (exfalso; simp_all [latchDot])
  · rename_i h
    simp only [Bool.and_eq_true, decide_eq_true_eq] at h
    exact ⟨⟨rfl, rfl, rfl, rfl, rfl, rfl, rfl⟩, fun h1 => absurd ⟨h1.1, h1.2.1⟩ h, fun h1 => absurd ⟨h1.1, h1.2.1⟩ h,
      fun _ => rfl⟩

/-- The counters after a dot of 257-319: the next dot of the same line. -/
theorem advance_inside {p : Ppu} (h : p.dot < 320) :
    advance p = { p with dot := p.dot + 1 } := by
  unfold advance Ppu.lastDot
  have h1 : ¬ 340 ≤ p.dot := by omega
  have h2 : ¬ p.dot = 339 := by omega
  simp [h1, h2, show p.dot < 340 by omega]

theorem advance_mask (p : Ppu) : (advance p).mask = p.mask := by
  unfold advance
  split
  · rfl
  · split <;> rfl

theorem advance_latch (p : Ppu) : (advance p).sprLatch = p.sprLatch := by
  unfold advance
  split
  · rfl
  · split <;> rfl

/-- Where the latch is full at a boundary. -/
def fullDot (p : Ppu) : Prop :=
  p.renderingActive = true ∧ 257 ≤ p.dot ∧ p.dot ≤ 320 ∧ 6 ≤ (p.dot - 1) % 8

theorem settledLatch_full {w : PpuWorld} {mp : Mapper} {p : Ppu} (h : fullDot p) :
    settledLatch w mp p =
      some { addr := p.spriteAddr p.slotIndex, lo := ppuPeek w mp p.mask (p.spriteAddr p.slotIndex) } := by
  obtain ⟨h1, h2, h3, h4⟩ := h
  simp [settledLatch, h1, h2, h3, h4]

theorem settledLatch_empty {w : PpuWorld} {mp : Mapper} {p : Ppu} (h : ¬ fullDot p) : settledLatch w mp p = none := by
  unfold settledLatch
  rw [if_neg]
  simp only [Bool.and_eq_true, decide_eq_true_eq]
  exact fun ⟨⟨⟨h1, h2⟩, h3⟩, h4⟩ => h ⟨h1, h2, h3, h4⟩

/-- After a dot the latch is full only where this dot filled or kept it. -/
theorem advance_full {p : Ppu} (h : fullDot (advance p)) : latchDot p ∧ p.renderingActive = true := by
  have hm : p.dot < 340 ∧ advance p = { p with dot := p.dot + 1 } := by
    unfold advance at h ⊢
    split at h
    · exact absurd h.2.1 (by show ¬ 257 ≤ 0; omega)
    · split at h
      · rename_i h1 h2
        rw [if_neg h1, if_pos h2]
        exact ⟨h2, rfl⟩
      · exact absurd h.2.1 (by show ¬ 257 ≤ 0; omega)
  rw [hm.2] at h
  obtain ⟨h1, h2, h3, h4⟩ := h
  have h2 : 257 ≤ p.dot + 1 := h2
  have h3 : p.dot + 1 ≤ 320 := h3
  have h4 : 6 ≤ (p.dot + 1 - 1) % 8 := h4
  exact ⟨⟨by omega, by omega, by omega⟩, h1⟩

theorem SameSprite.spriteAddr {p q : Ppu} (h : SameSprite p q) (i : Fin 8) : q.spriteAddr i = p.spriteAddr i := by
  unfold Ppu.spriteAddr Ppu.slotValid Ppu.secByte Ppu.spriteHeight
  rw [h.ctrl, h.scanline, h.secOam, h.sprCountNext]

theorem spriteAddr_dot (p : Ppu) (d : Nat) (i : Fin 8) : ({ p with dot := d } : Ppu).spriteAddr i = p.spriteAddr i := rfl

theorem SameSprite.active {p q : Ppu} (h : SameSprite p q) : q.renderingActive = p.renderingActive := by
  unfold Ppu.renderingActive Ppu.renderingEnabled Ppu.renderLine
  rw [h.mask, h.scanline]

/-- The latch is as `settledLatch` says. -/
def Settled (w : PpuWorld) (p : Ppu) (mp : Mapper) : Prop := p.sprLatch = settledLatch w mp p

theorem full_of_kept {p : Ppu} (ha : p.renderingActive = true) (hd : latchDot p) (h6 : (p.dot - 1) % 8 = 6) : fullDot p :=
  ⟨ha, hd.1, hd.2.1, by omega⟩

/-- The dot after a `latchDot`, whose latch is the settled one. -/
theorem advance_settled {w : PpuWorld} {p q : Ppu} {mp mq : Mapper} (hs : SameSprite p { q with sprLatch := p.sprLatch })
    (hb : mq.banks = mp.banks) (ha : p.renderingActive = true) (hd : latchDot p)
    (hl : q.sprLatch =
      some { addr := p.spriteAddr p.slotIndex, lo := ppuPeek w mp p.mask (p.spriteAddr p.slotIndex) }) :
    Settled w (advance q) mq := by
  have hdot : q.dot = p.dot := hs.dot
  obtain ⟨h1, h2, h3⟩ := hd
  have hq : q.dot < 320 := by omega
  have hi : ({ q with dot := q.dot + 1 } : Ppu).slotIndex = p.slotIndex := by
    unfold Ppu.slotIndex
    have : (q.dot + 1 - 257) / 8 = (p.dot - 257) / 8 := by omega
    exact congrArg (Fin.ofNat 8) this
  have hm : q.mask = p.mask := hs.mask
  have hx : q.spriteAddr p.slotIndex = p.spriteAddr p.slotIndex := hs.spriteAddr _
  rw [advance_inside hq]
  unfold Settled
  rw [settledLatch_full, hi, spriteAddr_dot, hx, show ({ q with dot := q.dot + 1 } : Ppu).mask = q.mask from rfl, hm,
    ppuPeek_congr w hb]
  · exact hl
  · refine ⟨?_, ?_, ?_, ?_⟩
    · exact (show q.renderingActive = p.renderingActive from hs.active).trans ha
    · show 257 ≤ q.dot + 1; omega
    · show q.dot + 1 ≤ 320; omega
    · show 6 ≤ (q.dot + 1 - 1) % 8; omega

/-- A dot settles the latch, but for k = 6, which keeps it. -/
theorem ppuTick_settled (w : PpuWorld) (o : DotOut) (h : (o.ppu.dot - 1) % 8 ≠ 6 ∨ Settled w o.ppu o.mapper) :
    Settled w (ppuTick w o).ppu (ppuTick w o).mapper := by
  have hs0 := statusFlags_sprite o.ppu
  have hb : (ppuTick w o).mapper.banks = o.mapper.banks := ppuTick_banks w o
  by_cases ha : (statusFlags o.ppu).renderingActive = true
  · -- rendering: the dot up to the sprite fetch, the fetch, and what follows
    have hs1 := hs0.trans ((((bgShift_sprite (statusFlags o.ppu)).trans (bgReload_sprite _)).trans
      (bgFetch_sprite w _ o.mapper)).trans (scrollUpdate_sprite _))
    have hp : (ppuTick w o).ppu = advance (spriteEvaluation w.vmem.oam (drawPixel w.vmem (spriteFetch w (scrollUpdate
        (bgFetch w (bgReload (bgShift (statusFlags o.ppu))) o.mapper).1)
        (bgFetch w (bgReload (bgShift (statusFlags o.ppu))) o.mapper).2).1)) := by
      unfold ppuTick renderDot
      rw [if_pos ha]
    have hbg : (bgFetch w (bgReload (bgShift (statusFlags o.ppu))) o.mapper).2.banks = o.mapper.banks := bgFetch_banks _ _ _
    have ha0 : o.ppu.renderingActive = true := hs0.active.symm.trans ha
    rw [hp]
    generalize (ppuTick w o).mapper = mq at hb ⊢
    generalize (bgFetch w (bgReload (bgShift (statusFlags o.ppu))) o.mapper).2 = m2 at hbg ⊢
    generalize scrollUpdate (bgFetch w (bgReload (bgShift (statusFlags o.ppu))) o.mapper).1 = p2 at hs1 ⊢
    have hf := spriteFetch_latch w p2 m2
    generalize (spriteFetch w p2 m2).1 = p3 at hf ⊢
    have hl4 : (spriteEvaluation w.vmem.oam (drawPixel w.vmem p3)).sprLatch = p3.sprLatch :=
      (spriteEvaluation_latch _ _).trans (drawPixel_sprite _ _).sprLatch
    by_cases hd : latchDot o.ppu
    · have hd2 : latchDot p2 := by
        unfold latchDot at hd ⊢
        rw [hs1.dot]
        exact hd
      have he : spriteEvaluation w.vmem.oam (drawPixel w.vmem p3) = drawPixel w.vmem p3 := by
        unfold spriteEvaluation
        rw [if_neg]
        have h1 : (drawPixel w.vmem p3).dot = p3.dot := (drawPixel_sprite _ _).dot
        have h2 : p3.dot = p2.dot := hf.same.dot
        rw [h1, h2]
        have := hd2.1
        omega
      rw [he] at hl4 ⊢
      have hdraw := drawPixel_sprite w.vmem p3
      have hsame : SameSprite o.ppu { drawPixel w.vmem p3 with sprLatch := o.ppu.sprLatch } :=
        have g := hf.same
        ⟨hdraw.ctrl.trans (g.ctrl.trans hs1.ctrl), hdraw.mask.trans (g.mask.trans hs1.mask),
          hdraw.scanline.trans (g.scanline.trans hs1.scanline), hdraw.dot.trans (g.dot.trans hs1.dot),
          hdraw.secOam.trans (g.secOam.trans hs1.secOam),
          hdraw.sprCountNext.trans (g.sprCountNext.trans hs1.sprCountNext), rfl⟩
      refine advance_settled hsame hb ha0 hd ?_
      rw [hl4]
      have hi : p2.slotIndex = o.ppu.slotIndex := by unfold Ppu.slotIndex; rw [hs1.dot]
      rcases hd.2.2 with h5 | h6
      · rw [hf.filled hd2 (by rw [hs1.dot]; exact h5), hi, hs1.spriteAddr, hs1.mask, ppuPeek_congr w hbg]
      · rw [hf.kept hd2 (by rw [hs1.dot]; exact h6), hs1.sprLatch]
        have : Settled w o.ppu o.mapper := h.resolve_left (fun hn => hn h6)
        exact this.trans (settledLatch_full (full_of_kept ha0 hd h6))
    · have hd2 : ¬ latchDot p2 := by
        unfold latchDot at hd ⊢
        rw [hs1.dot]
        exact hd
      unfold Settled
      rw [advance_latch, hl4, hf.empty hd2, settledLatch_empty]
      intro hfull
      have := (advance_full hfull).1
      refine hd2 ?_
      unfold latchDot at this ⊢
      rw [(spriteEvaluation_counters _ _).2.1, (drawPixel_sprite _ _).dot, show p3.dot = p2.dot from hf.same.dot] at this
      exact this
  · -- no rendering: the latch is empty, and the next dot is outside rendering too
    have hp : (ppuTick w o).ppu = advance (drawPixel w.vmem { statusFlags o.ppu with sprLatch := none }) := by
      unfold ppuTick renderDot
      rw [if_neg ha]
    rw [hp]
    unfold Settled
    rw [advance_latch, (drawPixel_sprite _ _).sprLatch, settledLatch_empty]
    intro hfull
    exact ha ((drawPixel_sprite w.vmem { statusFlags o.ppu with sprLatch := none }).active.symm.trans (advance_full hfull).2)

/-- The dot after k = 6 is no k = 6. -/
theorem ppuTick_dot {w : PpuWorld} {o : DotOut} (h : (o.ppu.dot - 1) % 8 = 6) : ((ppuTick w o).ppu.dot - 1) % 8 ≠ 6 := by
  obtain ⟨q, hq, hr⟩ := renderDot_cases w (statusFlags o.ppu) o.mapper
  have hdot : (renderDot w (statusFlags o.ppu) o.mapper).1.dot = o.ppu.dot := by
    rcases hr with hr | hr
    · rw [hr, (drawPixel_sprite _ _).dot, hq.dot, (statusFlags_sprite _).dot]
    · rw [hr, (spriteEvaluation_counters _ _).2.1, (drawPixel_sprite _ _).dot, hq.dot, (statusFlags_sprite _).dot]
  have hp : (ppuTick w o).ppu = advance (renderDot w (statusFlags o.ppu) o.mapper).1 := rfl
  rw [hp]
  unfold advance
  split
  · show ¬ (0 - 1) % 8 = 6; decide
  · split
    · show ¬ ((renderDot w (statusFlags o.ppu) o.mapper).1.dot + 1 - 1) % 8 = 6
      rw [hdot]
      omega
    · show ¬ (0 - 1) % 8 = 6; decide

/-- Two dots settle the latch. -/
theorem twoTicks_settled (w : PpuWorld) (o : DotOut) :
    Settled w (ppuTick w (ppuTick w o)).ppu (ppuTick w (ppuTick w o)).mapper := by
  refine ppuTick_settled w _ ?_
  by_cases h : (o.ppu.dot - 1) % 8 = 6
  · exact .inl (ppuTick_dot h)
  · exact .inr (ppuTick_settled w o (.inl h))

/-- THE LATCH IS SETTLED AFTER EVERY CYCLE. -/
theorem endCycle_settled (s : State) : (endCycle s).mach.ppu.sprLatch = (endCycle s).settledLatch := by
  have h : Settled s.ppuWorld (threeDots s).ppu (threeDots s).mapper :=
    ppuTick_settled _ _ (.inr (twoTicks_settled _ _))
  exact h

/-- Every path keeps the latch settled. -/
theorem micro_settled {s t : State} (h : Micro s t) (hs : s.mach.ppu.sprLatch = s.settledLatch) :
    t.mach.ppu.sprLatch = t.settledLatch := by
  induction h with
  | refl => exact hs
  | endCycle _ _ => exact endCycle_settled _
  | read _ a _ => exact endCycle_settled _
  | write _ a v _ => exact endCycle_settled _
  | regs _ f ih => exact ih
  | hidden _ f hc ih => exact ih
  | fetched _ b hr ih => exact ih
  | dmaDone _ ih => exact ih

end Sys2Proof.Machine
end

