-- ==== Sys2Proof/Laws/Stack.lean ====
section
/-! SUPPORT. The stack: what a push stores, what a pull delivers, what a vector fetch loads, in the terms of Safety. -/

namespace Sys2Proof.Machine

/-! ## Reads of memory -/

/-- What memory holds is what a read delivers. -/
theorem peek_memByte {a : Word} {b : Byte} {s : State} (h : memByte a s = some b) : peek a s = b := by
  unfold memByte at h
  unfold peek busRead
  cases hr : region a <;> rw [hr] at h <;> simp only [Option.some.injEq, reduceCtorEq] at h
  · exact h
  · show (mapperCpuRead s.image s.mach.cart s.mach.mapper a).getD s.mach.openBus = b
    rw [h]; rfl

/-- A read of the cartridge space delivers what is there, or open bus. -/
theorem peek_cartridge {a : Word} (h : 0x4020 ≤ a) (s : State) : peek a s = (memByte a s).getD s.mach.openBus := by
  have hr := region_cartridge.mpr h
  unfold peek busRead memByte
  rw [hr]
  rfl

theorem peek_workRam {a : Word} (h : a < 0x2000) (s : State) : peek a s = Cells.read s.mach.ram (a.toNat % 2048) := by
  unfold peek busRead
  rw [region_workRam h]
  rfl

/-- A read leaves on the bus what it delivers, but for $4015. -/
theorem busRead_openBus {a : Word} (h : a ≠ 0x4015) (s : State) : (busRead a s).2.mach.openBus = peek a s := by
  unfold peek busRead
  cases hr : region a <;> first | rfl | skip
  unfold region at hr
  repeat' split at hr
  all_goals contradiction

theorem Quiet.memByte {s t : State} (h : Quiet s t) (a : Word) : Machine.memByte a t = Machine.memByte a s := h.memoryKept.bytes a

/-! ## The stack address -/

theorem stackAddr_eq (s : State) : stackAddr s = BitVec.ofNat 16 (256 + s.mach.regs.s.toNat) := by
  apply BitVec.eq_of_toNat_eq
  have := s.mach.regs.s.isLt
  unfold stackAddr word
  rw [BitVec.toNat_append, BitVec.toNat_ofNat, ← Nat.shiftLeft_add_eq_or_of_lt (by omega), Nat.shiftLeft_eq]
  show 1 * 2 ^ 8 + _ = _
  omega

theorem stackAddr_toNat (s : State) : (stackAddr s).toNat = 256 + s.mach.regs.s.toNat := by
  have := s.mach.regs.s.isLt
  rw [stackAddr_eq, BitVec.toNat_ofNat]
  omega

theorem stackAddr_lt (s : State) : stackAddr s < 0x2000 := by
  have := s.mach.regs.s.isLt
  rw [BitVec.lt_def, stackAddr_toNat]
  show _ < 8192
  omega

theorem region_stackAddr (s : State) : region (stackAddr s) = .workRam (256 + s.mach.regs.s.toNat) := by
  have := s.mach.regs.s.isLt
  rw [region_workRam (stackAddr_lt s), stackAddr_toNat]
  congr 1
  omega

/-! ## Pushes -/

/-- What the pushes of `bs` do, in a form that composes. -/
structure Pushes (bs : List Byte) (s t : State) : Prop where
  regs    : t.mach.regs = { s.mach.regs with s := s.mach.regs.s - BitVec.ofNat 8 bs.length }
  intDue  : t.mach.hidden.intDue = s.mach.hidden.intDue
  jammed  : t.mach.hidden.jammed = s.mach.hidden.jammed
  cycles  : t.mach.hidden.cycles = s.mach.hidden.cycles + bs.length
  kept    : Kept s t
  wf      : Memory.wf t.mach.ram = true
  ram     : ∀ i, Cells.read t.mach.ram i = (pushedByte s.mach.regs.s bs i).getD (Cells.read s.mach.ram i)
  cart    : t.mach.cart = s.mach.cart
  vmem    : t.mach.vmem = s.mach.vmem
  dmaReq  : t.mach.dmaReq = s.mach.dmaReq
  dmaPage : t.mach.dmaPage = s.mach.dmaPage
  banks   : t.mach.mapper.banks = s.mach.mapper.banks

theorem busWrite_stack (v : Byte) (s : State) :
    busWrite (stackAddr s) v s =
      { s with mach := { s.mach with openBus := v, ram := Cells.write s.mach.ram (256 + s.mach.regs.s.toNat) v } } := by
  unfold busWrite
  rw [region_stackAddr]
  rfl

theorem pushedByte_one (sp v : Byte) (i : Nat) :
    pushedByte sp [v] i = if i = 256 + sp.toNat then some v else none := rfl

theorem pushes_one {s : State} (m : Memory.wf s.mach.ram = true) (v : Byte) : Pushes [v] s (push v s) := by
  have hr : (push v s).mach.ram = Cells.write s.mach.ram (256 + s.mach.regs.s.toNat) v := by
    show (busWrite (stackAddr s) v s).mach.ram = _
    rw [busWrite_stack]
  refine ⟨?_, ?_, ?_, ?_, ?_, ?_, fun i => ?_, ?_, ?_, ?_, ?_, ?_⟩
  · show { (memWrite (stackAddr s) v s).mach.regs with s := (memWrite (stackAddr s) v s).mach.regs.s - 1 } = _
    rw [memWrite_regs]; rfl
  · exact memWrite_intDue _ _ _
  · exact memWrite_jammed _ _ _
  · exact memWrite_cycles _ _ _
  · exact (kept_memWrite _ _ _).trans (kept_updateRegs _ _)
  · rw [hr]; exact Cells.write_wf m _ _
  · rw [hr, Cells.read_write m]
    rw [pushedByte_one]
    split <;> rfl
  · show (busWrite (stackAddr s) v s).mach.cart = _; rw [busWrite_stack]
  · show (busWrite (stackAddr s) v s).mach.vmem = _; rw [busWrite_stack]
  · show (busWrite (stackAddr s) v s).mach.dmaReq = _; rw [busWrite_stack]
  · show (busWrite (stackAddr s) v s).mach.dmaPage = _; rw [busWrite_stack]
  · show (memWrite (stackAddr s) v s).mach.mapper.banks = _
    rw [memWrite, endCycle_banks, busWrite_stack]

theorem byte_sub_ofNat_succ (b : Byte) (n : Nat) : b - 1 - BitVec.ofNat 8 n = b - BitVec.ofNat 8 (n + 1) := by
  apply BitVec.eq_of_toNat_eq
  have := b.isLt
  have h1 : (1 : Byte).toNat = 1 := rfl
  simp only [BitVec.toNat_sub, BitVec.toNat_ofNat, h1]
  omega

theorem pushedByte_none {sp : Byte} {bs : List Byte} {i : Nat} (h : bs.length < 256)
    (hi : i = 256 + (sp - BitVec.ofNat 8 bs.length).toNat) : pushedByte sp bs i = none := by
  induction bs generalizing sp with
  | nil => rfl
  | cons b rest ih =>
    unfold pushedByte
    rw [if_neg, ih (by simp at h; omega)]
    · rw [hi, byte_sub_ofNat_succ]; rfl
    · simp only [List.length_cons] at h
      have := sp.isLt
      rw [hi, BitVec.toNat_sub, BitVec.toNat_ofNat, List.length_cons]
      omega

theorem pushedByte_append (sp : Byte) (bs : List Byte) (v : Byte) (i : Nat) :
    pushedByte sp (bs ++ [v]) i = (pushedByte sp bs i).or
      (if i = 256 + (sp - BitVec.ofNat 8 bs.length).toNat then some v else none) := by
  induction bs generalizing sp with
  | nil => simp [pushedByte]
  | cons b rest ih =>
    show (if _ then _ else pushedByte (sp - 1) (rest ++ [v]) i) = (if _ then _ else _ : Option Byte).or _
    split
    · rfl
    · rw [ih, byte_sub_ofNat_succ]; rfl

/-- One more push. -/
theorem Pushes.push {bs : List Byte} {s t : State} (h : Pushes bs s t) (hl : bs.length < 256) (v : Byte) :
    Pushes (bs ++ [v]) s (push v t) := by
  have g := pushes_one h.wf v
  refine ⟨?_, ?_, ?_, ?_, ?_, ?_, fun i => ?_, ?_, ?_, ?_, ?_, ?_⟩
  · rw [g.regs, h.regs]
    simp only [List.length_append, List.length_cons, List.length_nil, Nat.zero_add]
    congr 1
    apply BitVec.eq_of_toNat_eq
    simp only [BitVec.toNat_sub, BitVec.toNat_ofNat]
    have := s.mach.regs.s.isLt
    omega
  · rw [g.intDue, h.intDue]
  · rw [g.jammed, h.jammed]
  · rw [g.cycles, h.cycles]; simp; omega
  · exact h.kept.trans g.kept
  · exact g.wf
  · rw [g.ram, h.ram, pushedByte_append, h.regs, pushedByte_one]
    by_cases hi : i = 256 + (s.mach.regs.s - BitVec.ofNat 8 bs.length).toNat
    · rw [if_pos hi, pushedByte_none hl hi]; rfl
    · rw [if_neg hi, Option.or_none]; rfl
  · rw [g.cart, h.cart]
  · rw [g.vmem, h.vmem]
  · rw [g.dmaReq, h.dmaReq]
  · rw [g.dmaPage, h.dmaPage]
  · rw [g.banks, h.banks]

/-- Cycles that store nothing may come before the pushes. -/
theorem Pushes.after {bs : List Byte} {s t u : State} (h : Pushes bs t u) (q : Quiet s t) (k : Kept s t)
    (hr : t.mach.regs = s.mach.regs) : Kept s u ∧ Pushed bs s u := by
  refine ⟨k.trans h.kept, fun i => by rw [h.ram, hr, q.ram], fun a ha => ?_, fun a ha => ?_, by rw [h.cart, q.cart],
    by rw [h.vmem, q.vmem], by rw [h.dmaReq, q.dmaReq], by rw [h.dmaPage, q.dmaPage]⟩
  · unfold memByte
    rw [region_workRam ha]
    show some (Cells.read u.mach.ram _) = _
    rw [h.ram, hr, q.ram]
  · rw [← q.memoryKept.bytes a]
    unfold memByte
    cases hr : region a with
    | workRam i => exact absurd (region_workRam_lt hr).1 (BitVec.not_lt.mpr ha)
    | cartridge =>
      show mapperCpuRead _ _ _ a = mapperCpuRead _ _ _ a
      rw [← mapperCpuRead_banks, h.banks, mapperCpuRead_banks, h.cart, h.kept.image]
    | _ => rfl

/-- Cycles that store nothing may come after what was pushed. -/
theorem Pushed.quiet {bs : List Byte} {s t u : State} (h : Pushed bs s t) (q : Quiet t u) : Pushed bs s u :=
  ⟨fun i => by rw [q.ram, h.ram], fun a ha => by rw [q.memoryKept.bytes, h.low a ha],
    fun a ha => by rw [q.memoryKept.bytes, h.high a ha], by rw [q.cart, h.cart], by rw [q.vmem, h.vmem],
    by rw [q.dmaReq, h.dmaReq], by rw [q.dmaPage, h.dmaPage]⟩

/-! ## Pulls -/

/-- A pull delivers the byte above the stack pointer, and changes nothing but S and the cycle. -/
structure Pulls (s : State) (v : Byte) (t : State) : Prop where
  value  : v = pulledByte s 1
  regs   : t.mach.regs = { s.mach.regs with s := s.mach.regs.s + 1 }
  intDue : t.mach.hidden.intDue = s.mach.hidden.intDue
  jammed : t.mach.hidden.jammed = s.mach.hidden.jammed
  cycles : t.mach.hidden.cycles = s.mach.hidden.cycles + 1
  kept   : Kept s t
  quiet  : Quiet s t

theorem pull_pulls (s : State) : Pulls s (pull s).1 (pull s).2 := by
  refine ⟨?_, ?_, ?_, ?_, ?_, ?_, ?_⟩
  · show peek (stackAddr (pullPrepare s)) (pullPrepare s) = _
    have := s.mach.regs.s.isLt
    rw [peek_workRam (stackAddr_lt _), stackAddr_toNat]
    unfold pulledByte
    show Cells.read s.mach.ram ((256 + (s.mach.regs.s + 1).toNat) % 2048) = _
    rw [BitVec.toNat_add]
    show Cells.read s.mach.ram ((256 + (s.mach.regs.s.toNat + 1) % 2 ^ 8) % 2048) = _
    congr 1
    omega
  · exact dummyRead_regs _ _
  · exact dummyRead_intDue _ _
  · exact dummyRead_jammed _ _
  · exact dummyRead_cycles _ _
  · exact (kept_updateRegs _ _).trans (kept_dummyRead _ _)
  · exact (quiet_updateRegs _ _).trans (quiet_dummyRead _ _)

theorem pulledByte_next {s t : State} (h : t.mach.ram = s.mach.ram) (hs : t.mach.regs.s = s.mach.regs.s + 1) (k : Nat) :
    pulledByte t k = pulledByte s (k + 1) := by
  unfold pulledByte
  rw [h, hs, BitVec.toNat_add]
  show Cells.read s.mach.ram (256 + ((s.mach.regs.s.toNat + 1) % 2 ^ 8 + k) % 256) = _
  congr 1
  omega

theorem pulledByte_congr {s t : State} (h : t.mach.ram = s.mach.ram) (hs : t.mach.regs.s = s.mach.regs.s) (k : Nat) :
    pulledByte t k = pulledByte s k := by
  unfold pulledByte
  rw [h, hs]

/-! ## The vector fetch -/

theorem dummyRead_openBus {a : Word} (h : a ≠ 0x4015) (s : State) : (dummyRead a s).mach.openBus = peek a s := by
  rw [dummyRead, endCycle_openBus, busRead_openBus h]

/-- A word of two reads in the cartridge space: open bus where nothing drives it. -/
theorem word_of_vector {vec : Word} (h : 0x4020 ≤ vec) (h1 : 0x4020 ≤ vec + 1) {s t : State}
    (hs : t.mach.openBus = peek vec s) (hm : memByte (vec + 1) t = memByte (vec + 1) s) :
    word (peek (vec + 1) t) (peek vec s) = vectorWord vec s.mach.openBus s := by
  unfold vectorWord
  rw [peek_cartridge h1, hm, hs, peek_cartridge h]

end Sys2Proof.Machine
end

