-- ==== Sys2Proof/Tests/Slice0.lean ====
section
/-! SUPPORT. The model's own tests, each about one step or one operation. Expected results come from the spec: the vectors
V<n> of 95_test_vectors.md, the encodings of 30_encoding.md and the tables it names. After them, a witness for the
hypotheses of every obligation that has some. -/

namespace Sys2Proof.Machine

set_option maxRecDepth 10000

/-! ## A small machine -/

/-- The bytes `bs` put in a memory from cell `k` up. -/
def put : Nat → List Byte → Memory → Memory
  | _, [], m => m
  | k, b :: bs, m => put (k + 1) bs (Cells.write m k b)

/-- A 32 KB image of mapper 0 with `code` at CPU address `pc` and the vectors $D000, $C000, $E000. -/
def testImage (pc : Word) (code : List Byte) : Image :=
  { mapperId := 0, prgCount := 2, chrCount := 1
    prgRom := put (pc.toNat - 0x8000) code [(0x7FFB, 0xD0), (0x7FFD, 0xC0), (0x7FFF, 0xE0)]
    chrRom := [], trainer := none, vertical := false, fourScreen := false, battery := false, name := [] }

/-- The start state of the vectors of 95_test_vectors.md: after the reset sequence, 7 cycles in, S = $FD and I set, with
`code` at `pc`; then the vector's registers and work RAM. -/
def boot (pc : Word) (code : List Byte) (f : Regs → Regs) (mem : List (Nat × Byte)) : State :=
  let m := MachineState.powerOn
  { State.reset with
    image := some (testImage pc code)
    mach := { m with
      regs := f { m.regs with s := 0xFD, pc := pc }
      hidden := { m.hidden with cycles := 7, rstPending := false }
      ppu := { m.ppu with dot := 21 }
      ram := mem.foldl (fun r e => Cells.write r e.1 e.2) [] } }

/-- The step from `s` answers a next state of which `f` holds. -/
def stepGives (s : State) (f : State → Bool) : Bool :=
  match step s with
  | .next t => f t
  | .fault _ | .refused _ => false

/-- Changes the machine. -/
def tweak (s : State) (f : MachineState → MachineState) : State := { s with mach := f s.mach }

/-- Changes the PPU. -/
def withPpu (f : Ppu → Ppu) (s : State) : State := tweak s fun m => { m with ppu := f m.ppu }

/-- Changes the APU. -/
def withApu (f : Apu → Apu) (s : State) : State := tweak s fun m => { m with apu := f m.apu }

/-- Changes the hidden CPU state. -/
def withHidden (f : Hidden → Hidden) (s : State) : State := tweak s fun m => { m with hidden := f m.hidden }

/-- The machine of the witnesses: a NOP at $C000. -/
def demo : State := boot 0xC000 [0xEA] id []

/-! ## Decoding: words written out from the encoding tables (30_encoding.md R150, R151, R155) -/

/-- LDA #$42: opcode 101 010 01. -/
theorem test_decode_load : decodeTableWord 16 0b0100001010101001 = some (.ldaImm 0x42) := by decide

/-- STA ($10),Y: opcode 100 100 01. -/
theorem test_decode_store : decodeTableWord 16 0b0001000010010001 = some (.staIzy 0x10) := by decide

/-- TSX: opcode 101 110 10. -/
theorem test_decode_transfer : decodeTableWord 8 0b10111010 = some (.tsx) := by decide

/-- ADC $1234,X: opcode 011 111 01. -/
theorem test_decode_arith : decodeTableWord 24 0b000100100011010001111101 = some (.adcAbx 0x1234) := by decide

/-- CPY #$07: opcode 110 000 00. -/
theorem test_decode_compare : decodeTableWord 16 0b0000011111000000 = some (.cpyImm 0x07) := by decide

/-- BIT $2002: opcode 001 011 00. -/
theorem test_decode_logic : decodeTableWord 24 0b001000000000001000101100 = some (.bitAbs 0x2002) := by decide

/-- INC $10,X: opcode 111 101 10. -/
theorem test_decode_incdec : decodeTableWord 16 0b0001000011110110 = some (.incZpx 0x10) := by decide

/-- ROR A: opcode 011 010 10. -/
theorem test_decode_shift : decodeTableWord 8 0b01101010 = some (.rorA) := by decide

/-- BNE -4: opcode 110 100 00. -/
theorem test_decode_branch : decodeTableWord 16 0b1111110011010000 = some (.bne 0xFC) := by decide

/-- JMP ($02FF): opcode 011 011 00. -/
theorem test_decode_jump : decodeTableWord 24 0b000000101111111101101100 = some (.jmpInd 0x02FF) := by decide

/-- PLP: opcode 001 010 00. -/
theorem test_decode_stack : decodeTableWord 8 0b00101000 = some (.plp) := by decide

/-- SEI: opcode 011 110 00. -/
theorem test_decode_flags : decodeTableWord 8 0b01111000 = some (.sei) := by decide

/-- BRK with padding byte $7F: opcode 000 000 00. -/
theorem test_decode_break : decodeTableWord 16 0b0111111100000000 = some (.brk 0x7F) := by decide

/-- NOP $8001,X: opcode 111 111 00. -/
theorem test_decode_nop : decodeTableWord 24 0b100000000000000111111100 = some (.nopAbxFC 0x8001) := by decide

/-- SAX $05,Y: opcode 100 101 11. -/
theorem test_decode_combined : decodeTableWord 16 0b0000010110010111 = some (.saxZpy 0x05) := by decide

/-- SRE $0300,Y: opcode 010 110 11. -/
theorem test_decode_shiftAnd : decodeTableWord 24 0b000000110000000001011011 = some (.sreAby 0x0300) := by decide

/-- SHX $02FF,Y: opcode 100 111 10. -/
theorem test_decode_highByte : decodeTableWord 24 0b000000101111111110011110 = some (.shxAby 0x02FF) := by decide

/-- LXA #$80: opcode 101 010 11. -/
theorem test_decode_unstable : decodeTableWord 16 0b1000000010101011 = some (.lxaImm 0x80) := by decide

/-- JAM $B2: opcode 101 100 10. -/
theorem test_decode_jam : decodeTableWord 8 0b10110010 = some (.jamB2) := by decide

/-- JSR with one operand byte missing is refused by name. -/
theorem test_decode_truncated : decode [0x20, 0x00] = .error (.truncated 0x20 3) := rfl

/-- No bytes hold no instruction. -/
theorem test_decode_noBytes : decode [] = .error .noBytes := rfl

/-! ## Well-formedness: terms that the checks refuse -/

/-- Two bytes do not spell a JMP. -/
theorem test_fits_refuses_short : (Instr.jmpAbs 0x1234).fits [0x4C, 0x34] = false := by decide

/-- Three bytes do not spell a NOP. -/
theorem test_fits_refuses_long : Instr.nop.fits [0xEA, 0x00, 0x00] = false := by decide

theorem test_fits_accepts : (Instr.jmpAbs 0x1234).fits [0x4C, 0x34, 0x12] = true := by decide

theorem test_wellFormed_brk : (Instr.brk 0x00).wellFormed = true ∧ (Instr.brk 0x00).length = 2 := by decide

/-- A memory with an entry that reads as an unlisted address is not canonical. -/
theorem test_wf_refuses_zero : Memory.wf [(3, 0)] = false := by decide

/-- A memory whose addresses do not rise is not canonical. -/
theorem test_wf_refuses_order : Memory.wf [(4, 1), (3, 1)] = false := by decide

/-! ## Instructions: the vectors of 95_test_vectors.md, parts 2.1 to 2.6 -/

/-- V1. -/
theorem test_V1 : stepGives (boot 0xC000 [0xB5, 0xF0] (fun r => { r with x := 0x20 }) [(0x10, 0x80), (0xF0, 0x11)]) (fun t =>
    t.mach.regs.a == 0x80 && packP false t.mach.regs.p == 0xA4 && t.mach.hidden.cycles == 11) = true := by decide

/-- V3. -/
theorem test_V3 : stepGives (boot 0xC000 [0xBD, 0xFF, 0x02] (fun r => { r with x := 0x01 })
    [(0x200, 0x55), (0x300, 0x7F)]) (fun t =>
    t.mach.regs.a == 0x7F && t.mach.hidden.cycles == 12) = true := by decide

/-- V5. -/
theorem test_V5 : stepGives (boot 0xC000 [0x9D, 0x00, 0x02] (fun r => { r with a := 0x42, x := 0x05 }) []) (fun t =>
    memByte 0x205 t == some 0x42 && t.mach.hidden.cycles == 12) = true := by decide

/-- V6. -/
theorem test_V6 : stepGives (boot 0xC000 [0xA1, 0xFE] (fun r => { r with x := 0x01 })
    [(0x0, 0x02), (0xFF, 0x34), (0x234, 0xC3)]) (fun t =>
    t.mach.regs.a == 0xC3 && packP false t.mach.regs.p == 0xA4 && t.mach.hidden.cycles == 13) = true := by decide

/-- V8. -/
theorem test_V8 : stepGives (boot 0xC000 [0xB1, 0xFF] (fun r => { r with y := 0x10 })
    [(0x0, 0x02), (0xFF, 0xF8), (0x308, 0x01)]) (fun t =>
    t.mach.regs.a == 0x01 && t.mach.hidden.cycles == 13) = true := by decide

/-- V10. -/
theorem test_V10 : stepGives (boot 0xC000 [0x91, 0x10] (fun r => { r with a := 0x11, y := 0x01 })
    [(0x10, 0x00), (0x11, 0x03)]) (fun t =>
    memByte 0x301 t == some 0x11 && t.mach.hidden.cycles == 13) = true := by decide

/-- V12. -/
theorem test_V12 : stepGives (boot 0xC000 [0x96, 0xFF] (fun r => { r with x := 0x99, y := 0x02 }) []) (fun t =>
    memByte 0x1 t == some 0x99 && t.mach.hidden.cycles == 11) = true := by decide

/-- V14. -/
theorem test_V14 : stepGives (boot 0xC000 [0x9A] (fun r => { r with x := 0x00 }) []) (fun t =>
    t.mach.regs.s == 0x00 && t.mach.hidden.cycles == 9) = true := by decide

/-- V15. -/
theorem test_V15 : stepGives (boot 0xC000 [0xBA] (fun r => { r with s := 0x80 }) []) (fun t =>
    t.mach.regs.x == 0x80 && packP false t.mach.regs.p == 0xA4 && t.mach.hidden.cycles == 9) = true := by decide

/-- V21. -/
theorem test_V21 : stepGives (boot 0xC000 [0x69, 0x90] (fun r => { r with a := 0xD0 }) []) (fun t =>
    t.mach.regs.a == 0x60 && packP false t.mach.regs.p == 0x65 && t.mach.hidden.cycles == 9) = true := by decide

/-- V25. -/
theorem test_V25 : stepGives (boot 0xC000 [0x69, 0x01] (fun r => { r with a := 0x09, p := unpackP 0x2C }) []) (fun t =>
    t.mach.regs.a == 0x0A && packP false t.mach.regs.p == 0x2C && t.mach.hidden.cycles == 9) = true := by decide

/-- V26. -/
theorem test_V26 : stepGives (boot 0xC000 [0xE9, 0xF0] (fun r => { r with a := 0x50, p := unpackP 0x25 }) []) (fun t =>
    t.mach.regs.a == 0x60 && packP false t.mach.regs.p == 0x24 && t.mach.hidden.cycles == 9) = true := by decide

/-- V29. -/
theorem test_V29 : stepGives (boot 0xC000 [0xE9, 0x01] (fun r => { r with a := 0x80, p := unpackP 0x25 }) []) (fun t =>
    t.mach.regs.a == 0x7F && packP false t.mach.regs.p == 0x65 && t.mach.hidden.cycles == 9) = true := by decide

/-- V32. -/
theorem test_V32 : stepGives (boot 0xC000 [0xC9, 0x41] (fun r => { r with a := 0x40 }) []) (fun t =>
    packP false t.mach.regs.p == 0xA4 && t.mach.hidden.cycles == 9) = true := by decide

/-- V34. -/
theorem test_V34 : stepGives (boot 0xC000 [0xC9, 0xFF] (fun r => { r with a := 0x00 }) []) (fun t =>
    packP false t.mach.regs.p == 0x24 && t.mach.hidden.cycles == 9) = true := by decide

/-- V36. -/
theorem test_V36 : stepGives (boot 0xC000 [0xC0, 0x10] (fun r => { r with y := 0x10 }) []) (fun t =>
    packP false t.mach.regs.p == 0x27 && t.mach.hidden.cycles == 9) = true := by decide

/-- V37. -/
theorem test_V37 : stepGives (boot 0xC000 [0x29, 0x0F] (fun r => { r with a := 0xF0 }) []) (fun t =>
    t.mach.regs.a == 0x00 && packP false t.mach.regs.p == 0x26 && t.mach.hidden.cycles == 9) = true := by decide

/-- V40. -/
theorem test_V40 : stepGives (boot 0xC000 [0x24, 0x10] (fun r => { r with a := 0x01 }) [(0x10, 0xC0)]) (fun t =>
    packP false t.mach.regs.p == 0xE6 && t.mach.hidden.cycles == 10) = true := by decide

/-- V41. -/
theorem test_V41 : stepGives (boot 0xC000 [0xE6, 0x10] id [(0x10, 0xFF)]) (fun t =>
    packP false t.mach.regs.p == 0x26 && memByte 0x10 t == some 0x00 && t.mach.hidden.cycles == 12) = true := by decide

/-- V42. -/
theorem test_V42 : stepGives (boot 0xC000 [0xDE, 0x00, 0x02] (fun r => { r with x := 0x01 }) [(0x201, 0x00)]) (fun t =>
    packP false t.mach.regs.p == 0xA4 && memByte 0x201 t == some 0xFF && t.mach.hidden.cycles == 14) = true := by decide

/-- V43. -/
theorem test_V43 : stepGives (boot 0xC000 [0xE8] (fun r => { r with x := 0xFF }) []) (fun t =>
    t.mach.regs.x == 0x00 && packP false t.mach.regs.p == 0x26 && t.mach.hidden.cycles == 9) = true := by decide

/-- V46. -/
theorem test_V46 : stepGives (boot 0xC000 [0x88] (fun r => { r with y := 0x00 }) []) (fun t =>
    t.mach.regs.y == 0xFF && packP false t.mach.regs.p == 0xA4 && t.mach.hidden.cycles == 9) = true := by decide

/-- V50. -/
theorem test_V50 : stepGives (boot 0xC000 [0x0A] (fun r => { r with a := 0x81 }) []) (fun t =>
    t.mach.regs.a == 0x02 && packP false t.mach.regs.p == 0x25 && t.mach.hidden.cycles == 9) = true := by decide

/-- V53. -/
theorem test_V53 : stepGives (boot 0xC000 [0x6A] (fun r => { r with a := 0x01, p := unpackP 0x25 }) []) (fun t =>
    t.mach.regs.a == 0x80 && packP false t.mach.regs.p == 0xA5 && t.mach.hidden.cycles == 9) = true := by decide

/-- V54. -/
theorem test_V54 : stepGives (boot 0xC000 [0x06, 0x10] id [(0x10, 0x40)]) (fun t =>
    packP false t.mach.regs.p == 0xA4 && memByte 0x10 t == some 0x80 && t.mach.hidden.cycles == 12) = true := by decide

/-- V55. -/
theorem test_V55 : stepGives (boot 0xC000 [0x7E, 0xFF, 0x01] (fun r => { r with x := 0x01 }) [(0x200, 0x02)]) (fun t =>
    packP false t.mach.regs.p == 0x24 && memByte 0x200 t == some 0x01 && t.mach.hidden.cycles == 14) = true := by decide

/-- V60. -/
theorem test_V60 : stepGives (boot 0xC000 [0xD0, 0x10] (fun r => { r with p := unpackP 0x26 }) []) (fun t =>
    t.mach.regs.pc == 0xC002 && t.mach.hidden.cycles == 9) = true := by decide

/-- V62. -/
theorem test_V62 : stepGives (boot 0xC0F0 [0xF0, 0x10] (fun r => { r with p := unpackP 0x26 }) []) (fun t =>
    t.mach.regs.pc == 0xC102 && t.mach.hidden.cycles == 11) = true := by decide

/-- V63. -/
theorem test_V63 : stepGives (boot 0xC100 [0x90, 0xFB] id []) (fun t =>
    t.mach.regs.pc == 0xC0FD && t.mach.hidden.cycles == 11) = true := by decide

/-- V69. -/
theorem test_V69 : stepGives (boot 0xC000 [0x4C, 0x34, 0x12] id []) (fun t =>
    t.mach.regs.pc == 0x1234 && t.mach.hidden.cycles == 10) = true := by decide

/-- V70. -/
theorem test_V70 : stepGives (boot 0xC000 [0x6C, 0xFF, 0x02] id [(0x200, 0x80), (0x2FF, 0x00), (0x300, 0x90)]) (fun t =>
    t.mach.regs.pc == 0x8000 && t.mach.hidden.cycles == 12) = true := by decide

/-- V71. -/
theorem test_V71 : stepGives (boot 0xC000 [0x20, 0x00, 0xD0] (fun r => { r with s := 0xFD }) []) (fun t =>
    t.mach.regs.s == 0xFB && memByte 0x1FD t == some 0xC0 && memByte 0x1FC t == some 0x02 &&
      t.mach.regs.pc == 0xD000 && t.mach.hidden.cycles == 13) = true := by decide

/-- V72. -/
theorem test_V72 : stepGives (boot 0xC000 [0x60] (fun r => { r with s := 0xFB }) [(0x1FC, 0x02), (0x1FD, 0xC1)]) (fun t =>
    t.mach.regs.s == 0xFD && t.mach.regs.pc == 0xC103 && t.mach.hidden.cycles == 13) = true := by decide

/-- V74. -/
theorem test_V74 : stepGives (boot 0xC000 [0x40] (fun r => { r with s := 0xFA })
    [(0x1FB, 0xFF), (0x1FC, 0x34), (0x1FD, 0x12)]) (fun t =>
    t.mach.regs.s == 0xFD && packP false t.mach.regs.p == 0xEF && t.mach.regs.pc == 0x1234 &&
      t.mach.hidden.cycles == 13) = true := by decide

/-- V80. -/
theorem test_V80 : stepGives (boot 0xC000 [0x08] (fun r => { r with s := 0xFD, p := unpackP 0xA9 }) []) (fun t =>
    t.mach.regs.s == 0xFC && memByte 0x1FD t == some 0xB9 && t.mach.hidden.cycles == 10) = true := by decide

/-- V81. -/
theorem test_V81 : stepGives (boot 0xC000 [0x28] (fun r => { r with s := 0xFC }) [(0x1FD, 0xFF)]) (fun t =>
    t.mach.regs.s == 0xFD && packP false t.mach.regs.p == 0xEF && t.mach.hidden.cycles == 11) = true := by decide

/-- V82. -/
theorem test_V82 : stepGives (boot 0xC000 [0x48] (fun r => { r with a := 0x77, s := 0x00 }) []) (fun t =>
    t.mach.regs.s == 0xFF && memByte 0x100 t == some 0x77 && t.mach.hidden.cycles == 10) = true := by decide

/-- V83. -/
theorem test_V83 : stepGives (boot 0xC000 [0x68] (fun r => { r with s := 0xFF }) [(0x100, 0x00)]) (fun t =>
    t.mach.regs.a == 0x00 && t.mach.regs.s == 0x00 && packP false t.mach.regs.p == 0x26 &&
      t.mach.hidden.cycles == 11) = true := by decide

/-- V84. -/
theorem test_V84 : stepGives (boot 0xC000 [0x18] (fun r => { r with p := unpackP 0x25 }) []) (fun t =>
    packP false t.mach.regs.p == 0x24 && t.mach.hidden.cycles == 9) = true := by decide

/-- V90. -/
theorem test_V90 : stepGives (boot 0xC000 [0x78] (fun r => { r with p := unpackP 0x20 }) []) (fun t =>
    packP false t.mach.regs.p == 0x24 && t.mach.hidden.cycles == 9) = true := by decide

/-- V100. -/
theorem test_V100 : stepGives (boot 0xC000 [0x07, 0x10] (fun r => { r with a := 0x01 }) [(0x10, 0x81)]) (fun t =>
    t.mach.regs.a == 0x03 && packP false t.mach.regs.p == 0x25 && memByte 0x10 t == some 0x02 &&
      t.mach.hidden.cycles == 12) = true := by decide

/-- V102. -/
theorem test_V102 : stepGives (boot 0xC000 [0x47, 0x10] (fun r => { r with a := 0xFF }) [(0x10, 0x03)]) (fun t =>
    t.mach.regs.a == 0xFE && packP false t.mach.regs.p == 0xA5 && memByte 0x10 t == some 0x01 &&
      t.mach.hidden.cycles == 12) = true := by decide

/-- V103. -/
theorem test_V103 : stepGives (boot 0xC000 [0x67, 0x10] (fun r => { r with a := 0x10 }) [(0x10, 0x03)]) (fun t =>
    t.mach.regs.a == 0x12 && packP false t.mach.regs.p == 0x24 && memByte 0x10 t == some 0x01 &&
      t.mach.hidden.cycles == 12) = true := by decide

/-- V105. -/
theorem test_V105 : stepGives (boot 0xC000 [0xE7, 0x10] (fun r => { r with a := 0x40, p := unpackP 0x25 })
    [(0x10, 0x3F)]) (fun t =>
    t.mach.regs.a == 0x00 && packP false t.mach.regs.p == 0x27 && memByte 0x10 t == some 0x40 &&
      t.mach.hidden.cycles == 12) = true := by decide

/-- V107. -/
theorem test_V107 : stepGives (boot 0xC000 [0xE3, 0x10] (fun r => { r with a := 0x00, x := 0x00, p := unpackP 0x25 })
    [(0x10, 0x00), (0x11, 0x03), (0x300, 0xFF)]) (fun t =>
    t.mach.regs.a == 0x00 && packP false t.mach.regs.p == 0x27 && memByte 0x300 t == some 0x00 &&
      t.mach.hidden.cycles == 15) = true := by decide

/-- V109. -/
theorem test_V109 : stepGives (boot 0xC000 [0x97, 0xFF] (fun r => { r with a := 0xFF, x := 0x0F, y := 0x02 }) []) (fun t =>
    memByte 0x1 t == some 0x0F && t.mach.hidden.cycles == 11) = true := by decide

/-- V110. -/
theorem test_V110 : stepGives (boot 0xC000 [0xB3, 0x10] (fun r => { r with y := 0xFF })
    [(0x10, 0x01), (0x11, 0x02), (0x300, 0x80)]) (fun t =>
    t.mach.regs.a == 0x80 && t.mach.regs.x == 0x80 && packP false t.mach.regs.p == 0xA4 &&
      t.mach.hidden.cycles == 13) = true := by decide

/-- V112. -/
theorem test_V112 : stepGives (boot 0xC000 [0x2B, 0x7F] (fun r => { r with a := 0xFF, p := unpackP 0x25 }) []) (fun t =>
    t.mach.regs.a == 0x7F && packP false t.mach.regs.p == 0x24 && t.mach.hidden.cycles == 9) = true := by decide

/-- V115. -/
theorem test_V115 : stepGives (boot 0xC000 [0x6B, 0x40] (fun r => { r with a := 0xFF }) []) (fun t =>
    t.mach.regs.a == 0x20 && packP false t.mach.regs.p == 0x64 && t.mach.hidden.cycles == 9) = true := by decide

/-- V118. -/
theorem test_V118 : stepGives (boot 0xC000 [0xCB, 0x10] (fun r => { r with a := 0x0F, x := 0xFF, p := unpackP 0x25 }) []) (fun t =>
    t.mach.regs.x == 0xFF && packP false t.mach.regs.p == 0xA4 && t.mach.hidden.cycles == 9) = true := by decide

/-- V119. -/
theorem test_V119 : stepGives (boot 0xC000 [0xEB, 0x01] (fun r => { r with a := 0x05, p := unpackP 0x25 }) []) (fun t =>
    t.mach.regs.a == 0x04 && packP false t.mach.regs.p == 0x25 && t.mach.hidden.cycles == 9) = true := by decide

/-- V125. -/
theorem test_V125 : stepGives (boot 0xC000 [0x9F, 0xF0, 0x12] (fun r => { r with a := 0xFF, x := 0xFF, y := 0x20 }) []) (fun t =>
    memByte 0x1310 t == some 0x13 && t.mach.hidden.cycles == 12) = true := by decide

/-- V126. -/
theorem test_V126 : stepGives (boot 0xC000 [0x9E, 0xFF, 0x02] (fun r => { r with x := 0x05, y := 0x01 }) []) (fun t =>
    memByte 0x100 t == some 0x01 && t.mach.hidden.cycles == 12) = true := by decide

/-- V129. -/
theorem test_V129 : stepGives (boot 0xC000 [0x9B, 0x00, 0x70] (fun r => { r with a := 0xF3, x := 0x3F, y := 0x00 }) []) (fun t =>
    t.mach.regs.s == 0x33 && memByte 0x7000 t == some 0x31 && t.mach.hidden.cycles == 12) = true := by decide

/-- V130. -/
theorem test_V130 : stepGives (boot 0xC000 [0xBB, 0x00, 0x02] (fun r => { r with s := 0xFD, y := 0x00 })
    [(0x200, 0x0F)]) (fun t =>
    t.mach.regs.a == 0x0D && t.mach.regs.x == 0x0D && t.mach.regs.s == 0x0D && packP false t.mach.regs.p == 0x24 &&
      t.mach.hidden.cycles == 11) = true := by decide

/-- V132. -/
theorem test_V132 : stepGives (boot 0xC000 [0x14, 0xFF] (fun r => { r with x := 0x02 }) []) (fun t =>
    t.mach.regs.pc == 0xC002 && t.mach.hidden.cycles == 11) = true := by decide

/-- V134. -/
theorem test_V134 : stepGives (boot 0xC000 [0x1C, 0xFF, 0x02] (fun r => { r with x := 0x01 }) []) (fun t =>
    t.mach.regs.pc == 0xC003 && t.mach.hidden.cycles == 12) = true := by decide

/-- V73: BRK, the IRQ vector being $E000 here; B is set in the pushed byte. -/
theorem test_V73 : stepGives (boot 0xC000 [0x00, 0x99] (fun r => { r with p := unpackP 0xA1 }) []) (fun t =>
    t.mach.regs.pc == 0xE000 && t.mach.regs.s == 0xFA && packP false t.mach.regs.p == 0xA5 &&
      memByte 0x1FD t == some 0xC0 && memByte 0x1FC t == some 0x02 && memByte 0x1FB t == some 0xB1 &&
      t.mach.hidden.cycles == 14) = true := by decide

/-- V137: JAM; the next step takes one cycle and changes no register. -/
theorem test_V137 : stepGives (boot 0xC000 [0x02] id []) (fun t =>
    t.mach.hidden.jammed && t.mach.regs.pc == 0xC001 && !t.mach.hidden.intDue && t.mach.hidden.cycles == 8 &&
      stepGives t (fun u => u.mach.regs == t.mach.regs && u.mach.hidden.cycles == 9)) = true := by decide

/-! ## Interrupts and reset (95_test_vectors.md, V140 to V151) -/

/-- V140: a latched NMI is due after NOP, whatever I is. -/
theorem test_V140_due : stepGives (withHidden (fun h => { h with nmiPending := true }) demo) (fun t =>
    t.mach.hidden.intDue && t.mach.hidden.cycles == 9) = true := by decide

/-- V140: the NMI sequence. -/
theorem test_V140_sequence : stepGives (withHidden (fun h => { h with nmiPending := true, intDue := true })
    (boot 0xC001 [0xEA] id [])) (fun t =>
    t.mach.regs.pc == 0xD000 && t.mach.regs.s == 0xFA && t.mach.regs.p.i && !t.mach.hidden.nmiPending &&
      !t.mach.hidden.intDue && memByte 0x1FD t == some 0xC0 && memByte 0x1FC t == some 0x01 &&
      memByte 0x1FB t == some 0x24 && t.mach.hidden.cycles == 14) = true := by decide

/-- A high IRQ line: the frame interrupt flag is set, and the line has been sampled. -/
def irqHigh (s : State) : State :=
  withApu (fun a => { a with fc := { a.fc with irq := true } }) (withHidden (fun h => { h with irqLevel := true }) s)

/-- V142: with I set a high IRQ line is not due after NOP. -/
theorem test_V142 : stepGives (irqHigh demo) (fun t =>
    !t.mach.hidden.intDue) = true := by decide

/-- V143: CLI takes effect one instruction late. -/
theorem test_V143 : stepGives (irqHigh (boot 0xC000 [0x58, 0xEA] id [])) (fun t =>
    !t.mach.hidden.intDue && !t.mach.regs.p.i) = true := by decide

/-- V144: the IRQ is due after SEI. -/
theorem test_V144 : stepGives (irqHigh (boot 0xC000 [0x78] (fun r => { r with p := unpackP 0x20 }) [])) (fun t =>
    t.mach.hidden.intDue && t.mach.regs.p.i) = true := by decide

/-- V146: RTI's I counts at once. -/
theorem test_V146 : stepGives (irqHigh (boot 0xC000 [0x40] (fun r => { r with s := 0xFA }) [(0x1FD, 0xC1)])) (fun t =>
    t.mach.hidden.intDue && t.mach.regs.pc == 0xC100 && !t.mach.regs.p.i && t.mach.hidden.cycles == 13) = true := by decide

/-- V147: a latched NMI hijacks BRK, with B = 1 in the pushed byte. -/
theorem test_V147 : stepGives (withHidden (fun h => { h with nmiPending := true }) (boot 0xC000 [0x00, 0x00] id [])) (fun t =>
    t.mach.regs.pc == 0xD000 && memByte 0x1FB t == some 0x34) = true := by decide

/-- V150: the first step after power-on is the reset sequence. -/
theorem test_V150 : stepGives { State.reset with image := some (testImage 0xC000 [0xEA]) } (fun t =>
    t.mach.regs == { a := 0, x := 0, y := 0, s := 0xFD, pc := 0xC000, p := unpackP 0x04 } &&
      t.mach.hidden.cycles == 7 && t.mach.ppu.scanline == 0 && t.mach.ppu.dot == 21) = true := by decide

/-- V151: a soft reset of a jammed machine. -/
theorem test_V151 : stepGives (tweak (withHidden (fun h => { h with jammed := true })
      (boot 0xC000 [0xEA] (fun r => { r with s := 0xF0, a := 0x12 }) [])) MachineState.softReset) (fun t =>
    t.mach.regs.s == 0xED && t.mach.regs.a == 0x12 && t.mach.regs.p.i && !t.mach.hidden.jammed) = true := by decide

/-! ## PPU registers (95_test_vectors.md, V160 to V178) -/

/-- The machine of the PPU vectors: past the warm-up. -/
def warm : State := withPpu (fun p => { p with warmup := false }) demo

/-- V160. -/
theorem test_V160 : let p := (busWrite 0x2000 0x03 warm).mach.ppu
    p.ctrl = 0x03 ∧ p.t = 0x0C00 ∧ p.ioLatch = 0x03 := by decide

/-- V161. -/
theorem test_V161 : let p := (busWrite 0x2005 0x5E (busWrite 0x2005 0x7D warm)).mach.ppu
    p.t = 0x616F ∧ p.fineX = 5 ∧ p.w = false := by decide

/-- V162. -/
theorem test_V162 : let p := (busWrite 0x2006 0x08 (busWrite 0x2006 0x21 warm)).mach.ppu
    p.t = 0x2108 ∧ p.v = 0x2108 ∧ p.w = false := by decide

/-- V166. -/
theorem test_V166 : (busRead 0x2007 (withPpu (fun p => { p with v := 0x7FFF }) warm)).2.mach.ppu.v = 0 := by decide

/-- V168: a palette read is delivered at once, and fills the buffer from the nametable below. -/
theorem test_V168 : let r := busRead 0x2007 (tweak (withPpu (fun p => { p with v := 0x3F10, ioLatch := 0xC0 }) warm)
      fun m => { m with vmem := { m.vmem with palette := [(0, 0x0F)], ciram := [(0x710, 0x55)] } })
    r.1 = 0xCF ∧ r.2.mach.ppu.readBuffer = 0x55 ∧ r.2.mach.ppu.v = 0x3F11 := by decide

/-- V170. -/
theorem test_V170 : let r := busRead 0x2002 (withPpu (fun p =>
      { p with vblankFlag := true, sprOverflow := true, ioLatch := 0x1F, w := true }) warm)
    r.1 = 0xBF ∧ r.2.mach.ppu.vblankFlag = false ∧ r.2.mach.ppu.w = false ∧ r.2.mach.ppu.ioLatch = 0xBF := by decide

/-- V171: the read in the cycle whose first dot is (241, 1) suppresses the flag. -/
theorem test_V171 : let r := busRead 0x2002 (withPpu (fun p => { p with scanline := 241, dot := 1 }) warm)
    r.1.getLsbD 7 = false ∧ r.2.mach.ppu.suppressVbl = true ∧ (endCycle r.2).mach.ppu.vblankFlag = false := by decide

/-- V173: $2000 ignores writes during the warm-up. -/
theorem test_V173 : let p := (busWrite 0x2000 0x80 demo).mach.ppu
    p.ctrl = 0 ∧ p.ioLatch = 0x80 := by decide

/-- V174: enabling the NMI output while the vertical-blank flag is set latches an NMI at the end of the cycle. -/
theorem test_V174 : (memWrite 0x2000 0x80 (withPpu (fun p => { p with vblankFlag := true }) warm)).mach.hidden.nmiPending =
    true := by decide

/-- V175. -/
theorem test_V175 : let t := busWrite 0x2004 0xFF (withPpu (fun p => { p with oamaddr := 2 }) warm)
    Cells.read t.mach.vmem.oam 2 = 0xE3 ∧ t.mach.ppu.oamaddr = 3 := by decide

/-- V176. -/
theorem test_V176 :
    let s := withPpu (fun p => { p with oamaddr := 0x10, mask := 8, scanline := 10 }) warm
    let t := busWrite 0x2004 0x55 s
    t.mach.vmem.oam = [] ∧ t.mach.ppu.oamaddr = 0x14 := by decide

/-! ## APU, mappers, ports, snapshot -/

/-- A sprite slot takes both its pattern bytes at k = 7 and nothing at k = 5: rendering goes off in between
(61_ppu.md R707, R711). -/
theorem test_slot_whole :
    let s := withPpu (fun p => { p with mask := 0x18, scanline := 10, dot := 262, sprCountNext := 1,
                                        secOam := Vector.replicate 32 5 }) warm
    let t := tweak s fun m => { m with cart := { m.cart with chrRam := [(85, 0x81), (93, 0x42)] } }
    let u := { t with image := none }
    (endCycle u).mach.ppu.slots[0] = { patLo := 0x81, patHi := 0x42, attr := 5, x := 5 } ∧
    (endCycle (withPpu (fun p => { p with dot := 261 }) u)).mach.ppu.slots[0] = u.mach.ppu.slots[0] := by decide

/-- V190. -/
theorem test_V190 : let a := (busWrite 0x4003 0x08 (busWrite 0x4015 0x01 demo)).mach.apu
    a.p1.len = 254 ∧ a.p1.seq = 0 ∧ a.p1.env.start = true := by decide

/-- V193. -/
theorem test_V193 : let r := busRead 0x4015 (tweak (withApu (fun a =>
      { a with fc := { a.fc with irq := true }, dmc := { a.dmc with irq := true } }) demo) fun m => { m with openBus := 0x40 })
    r.1 = 0xC0 ∧ r.2.mach.apu.fc.irq = false ∧ r.2.mach.apu.dmc.irq = true := by decide

/-- V195, V196: the delay of a $4017 write in an odd and in an even cycle. -/
theorem test_V195_V196 : (demo.mach.apu.fc.write 101 0x00).resetDelay = 4 ∧ (demo.mach.apu.fc.write 100 0x80).resetDelay = 5 :=
  by decide

/-- A $4014 write asks for the OAM DMA of that page (20_memory.md R115). -/
theorem test_dma_request : (busWrite 0x4014 0x02 demo).mach.dmaReq = true ∧ (busWrite 0x4014 0x02 demo).mach.dmaPage = 2 := by
  decide

/-- UxROM: the last bank is fixed at $C000, the register picks the one at $8000 (63_cartridge_mappers.md R866). -/
theorem test_uxrom : let img := { testImage 0xC000 [] with prgCount := 4, prgRom := [(0x8000, 0x22), (0xC000, 0x33)] }
    mapperCpuRead (some img) demo.mach.cart (.uxrom 6) 0x8000 = some 0x22 ∧
      mapperCpuRead (some img) demo.mach.cart (.uxrom 6) 0xC000 = some 0x33 := by decide

/-- MMC3 registers one clock before the interrupt. -/
def mmc3Demo : Mmc3 :=
  { sel := 0, prgMode := false, chrInv := false, r := Vector.replicate 8 0, mirror := false, ramEn := true, ramWp := false
    latch := 5, counter := 1, reload := false, irqEn := true, irq := false, a12LastHigh := 0 }

/-- The difference of the A12 time stamps wraps in 64 bits: a stamp above the cycle count clocks (63_cartridge_mappers.md
R881). -/
theorem test_mmc3_stamp : (Mapper.mmc3 { mmc3Demo with a12LastHigh := 1000 }).ppuAddr 10 0x1000 =
    .mmc3 { mmc3Demo with counter := 0, irq := true, a12LastHigh := 10 } := by decide

/-- The MMC3 counter reaches 0 and raises its IRQ (63_cartridge_mappers.md R880). -/
theorem test_mmc3_irq : let r := mmc3Demo
    r.clockCounter.counter = 0 ∧ r.clockCounter.irq = true ∧ r.clockCounter.clockCounter.counter = 5 := by decide

/-- With the strobe high every read delivers button A (64_frame_driver_io.md R903). -/
theorem test_strobe : let s := busWrite 0x4016 0x01 (tweak demo fun m => { m with ports := { m.ports with latched0 := 0x09 } })
    (busRead 0x4016 s).1 = 0x01 ∧ (busRead 0x4016 (busRead 0x4016 s).2).1 = 0x01 := by decide

/-- The check value of CRC-32: the digits "123456789" (65_snapshot.md R956). -/
theorem test_crc32 : crc32 [0x31, 0x32, 0x33, 0x34, 0x35, 0x36, 0x37, 0x38, 0x39] = 0xCBF43926 := by decide

/-- V199: the mixer. -/
theorem test_V199 : mixSample 15 15 0 0 0 = 8437 ∧ mixSample 0 0 0 0 64 = 11169 ∧ mixSample 15 15 15 15 127 = 32766 := by decide

/-- The FPS estimate at 60 calls a second: 6.0 after the second call, 11.4 after the third (95_test_vectors.md; 64_frame_driver_io.md
R916), as doubles. -/
theorem test_fps : doubleOf (mkRat 6 1) = 0x4018000000000000 ∧ doubleValue 0x4018000000000000 = mkRat 6 1 ∧
    doubleOf (mkRat 57 5) = 0x4026CCCCCCCCCCCD := by decide

/-- SUPPORTED_MAPPERS is a parameter that always contains 0 (00_scope.md R9). -/
theorem test_supports : supports Config.allMappers 4 = true ∧ supports Config.allMappers 5 = false ∧
    supports { m1 := false, m2 := false, m3 := false, m4 := false, m7 := false } 0 = true ∧
    supports { m1 := true, m2 := true, m3 := true, m4 := false, m7 := true } 4 = false := by decide

/-- The count of the frame sequencer stays in its range (62_apu.md R751). -/
theorem test_frameCycle : frameCycleNext 37285 = 37286 ∧ frameCycleNext 37286 = 37286 := by decide

/-- The palette cells $10 and $00 are one (61_ppu.md R653). -/
theorem test_palIndex : palIndex 0x10 = 0 ∧ palIndex 0x1F = 0x1F := by decide

/-! ## Witnesses: the hypotheses of each obligation hold together somewhere -/

/-- A machine with canonical memories. -/
theorem witness_memoriesOk : MemoriesOk demo.mach := by
  refine ⟨?_, ?_, ?_, ?_, ?_, ?_, ?_, ?_, ?_, ?_⟩ <;> decide

/-- The hypothesis of the statements about a PPU in range. -/
theorem witness_ppuOk : PpuOk demo.mach.ppu ∧ PpuOk warm.mach.ppu := by
  refine ⟨⟨?_, ?_, ?_⟩, ⟨?_, ?_, ?_⟩⟩ <;> decide

theorem witness_apuOk : ApuOk demo.mach.apu := by
  refine ⟨?_, ?_, ?_, ?_, ?_, ?_, ?_, ?_, ?_, ?_, ?_⟩ <;> decide

/-- O8, O55: a state that meets the invariant, with its step. -/
theorem witness_inv : demo.Inv := ⟨witness_memoriesOk, witness_ppuOk.1, witness_apuOk, trivial, rfl, rfl⟩

theorem witness_stepAnswers : ∃ t, step demo = .next t := by
  have h : stepGives demo (fun _ => true) = true := by decide
  unfold stepGives at h
  split at h
  · exact ⟨_, ‹_›⟩
  · cases h
  · cases h

/-- O4: enough bytes, and too few. -/
theorem witness_opcodeLength : decode [0x20, 0x00, 0xD0, 0xEA] = .ok (.jsrAbs 0xD000, [0xEA]) ∧
    decode [0x20, 0x00] = .error (.truncated 0x20 3) := ⟨rfl, rfl⟩

/-- O5. -/
theorem witness_stepRunsTheDecodedInstruction : stepKind demo = .instruction ∧
    decode (fetchInstr demo).bytes = .ok (.nop, []) := ⟨by decide, rfl⟩

/-- O6: an implied, an immediate and a relative instruction, JMP and JSR. -/
theorem witness_stepRunsTheInstructionInMemory :
    [[0xEA, 0x00, 0x00], [0xA9, 0x42, 0x00], [0xD0, 0x10, 0x00], [0x4C, 0x34, 0x12], [0x20, 0x00, 0xD0]].all (fun bs =>
      let s := boot 0xC000 bs id []
      stepKind s == .instruction && some (memByte 0xC000 s) == bs[0]?.map some &&
        some (memByte 0xC001 s) == bs[1]?.map some && some (memByte 0xC002 s) == bs[2]?.map some) = true := by decide

/-- O12: a page crossing and none. -/
theorem witness_pageCross : pageCross 0x02FF 0x01 = true ∧ pageCross 0x02FE 0x01 = false := by decide

/-- O23: not taken, taken in the page, taken across a page. -/
theorem witness_branches : (fun f : Flags => f.z) demo.mach.regs.p = false ∧ (fun f : Flags => !f.z) demo.mach.regs.p = true ∧
    hi (branchTarget 0xC002 0x10) = hi 0xC002 ∧ hi (branchTarget 0xC0F2 0x10) ≠ hi 0xC0F2 := by decide

/-- O25: what JSR reads last is in memory. -/
theorem witness_jsr : memByte (boot 0xC001 [0x00, 0xD0] id []).mach.regs.pc
    (pushPc (dummyRead 0x01FD (boot 0xC001 [0x00, 0xD0] id []))) = some 0x00 := by decide

/-- O37: a jammed machine, with and without a DMC request before it. -/
theorem witness_jammed : let s := withHidden (fun h => { h with jammed := true }) demo
    s.mach.hidden.jammed = true ∧ s.mach.hidden.rstPending = false := by decide

/-- O38: an interrupt is next, NMI or IRQ. -/
theorem witness_interrupt : stepKind (withHidden (fun h => { h with intDue := true }) demo) = .interrupt ∧
    stepKind (withHidden (fun h => { h with intDue := true, nmiPending := true }) demo) = .interrupt := by decide

theorem witness_interrupt_memories : MemoriesOk (withHidden (fun h => { h with intDue := true }) demo).mach := by
  refine ⟨?_, ?_, ?_, ?_, ?_, ?_, ?_, ?_, ?_, ?_⟩ <;> decide

/-- O39. -/
theorem witness_resetPending : State.reset.mach.hidden.rstPending = true := by decide

/-- O40: the ends of each range of addresses. -/
theorem witness_busRanges : (0x0000 : Word).toNat < 0x2000 ∧ (0x1FFF : Word).toNat < 0x2000 ∧
    (0x4000 ≤ (0x4000 : Word).toNat ∧ (0x4014 : Word).toNat ≤ 0x4014) ∧
    (0x4018 ≤ (0x4018 : Word).toNat ∧ (0x401F : Word).toNat ≤ 0x401F) ∧
    0x4020 ≤ (0x4020 : Word).toNat ∧ 0x4020 ≤ (0xFFFF : Word).toNat ∧ (0x4014 : Word) ≠ 0x4015 := by decide

/-- O41, O42, O43: the first and the last mirror of each register. -/
theorem witness_ppuMirrors : ([(0x2000, 0), (0x3FF8, 0), (0x2001, 1), (0x3FF9, 1), (0x2002, 2), (0x3FFA, 2), (0x2003, 3),
    (0x3FFB, 3), (0x2004, 4), (0x3FFC, 4), (0x2005, 5), (0x3FFD, 5), (0x2006, 6), (0x3FFE, 6), (0x2007, 7), (0x3FFF, 7)] : List (Word × Nat)).all (fun e =>
      decide (0x2000 ≤ e.1.toNat ∧ e.1.toNat < 0x4000 ∧ e.1.toNat % 8 = e.2)) = true := by decide

/-- O42: warm-up and past it, first and second write. -/
theorem witness_writeToggle : demo.mach.ppu.warmup = true ∧ warm.mach.ppu.warmup = false ∧ warm.mach.ppu.w = false ∧
    (busWrite 0x2005 0 warm).mach.ppu.w = true := by decide

/-- O43: rendering active and not; the ends of CHR memory, the nametables and the palette; every step of coarse X and Y. -/
theorem witness_ppuData : warm.mach.ppu.renderingActive = false ∧
    (withPpu (fun p => { p with mask := 8 }) warm).mach.ppu.renderingActive = true ∧
    ([0x0000, 0x1FFF, 0x2000, 0x3EFF, 0x3F00, 0x3FFF] : List (BitVec 15)).map (fun v =>
      decide (((withPpu (fun p => { p with v := v }) warm).mach.ppu.v.setWidth 14).toNat < 0x3F00)) =
      [true, true, true, true, false, false] := by decide

theorem witness_ppuData_memories : MemoriesOk warm.mach := by
  refine ⟨?_, ?_, ?_, ?_, ?_, ?_, ?_, ?_, ?_, ?_⟩ <;> decide

/-- O44: a canonical palette; an address and its mirror. -/
theorem witness_palette : Cells.wf warm.mach.vmem.palette = true ∧ (0x10 % 4 = 0 ∧ 0x10 % 16 = 0x00 % 16) := by decide

/-- O45: the last dot, the short line of an odd frame, the two dots that change the flags; each is in range. -/
theorem witness_dots : ([(261, 340), (261, 339), (241, 1), (261, 1), (0, 0)] : List (Nat × Nat)).all (fun e =>
    decide (e.1 ≤ 261 ∧ e.2 ≤ 340)) = true := by decide

/-- O49: rendering is off and the page is in memory. -/
theorem witness_oamDma : demo.mach.ppu.renderingEnabled = false ∧ demo.mach.dmaPage = 0 := by decide

theorem witness_oamDma_page (i : Byte) : memByte (word demo.mach.dmaPage i) demo = some 0 := by
  revert i
  decide

/-- O50: the DMC asks for a byte. -/
theorem witness_dmc : let s := withApu (fun a => { a with dmc := { a.dmc with remain := 1 } }) demo
    s.mach.hidden.rstPending = false ∧ s.mach.apu.dmc.bufEmpty = true ∧ s.mach.apu.dmc.remain ≠ 0 := by decide

/-- O51: an image with an even number of banks and CHR ROM; both ends of each range of CPU and PPU addresses. -/
theorem witness_banks : (testImage 0xC000 []).prgCount ≠ 0 ∧ (testImage 0xC000 []).prgCount.toNat % 2 = 0 ∧
    (testImage 0xC000 []).chrCount.toNat ≠ 0 ∧ (0x5FFF : Word).toNat < 0x6000 ∧ 0x6000 ≤ (0x6000 : Word).toNat ∧
    (0x7FFF : Word).toNat < 0x8000 ∧ 0x8000 ≤ (0x8000 : Word).toNat ∧ 0x8000 ≤ (0xFFFF : Word).toNat ∧
    (0x0000 : PpuAddr).toNat < 0x2000 ∧ (0x1FFF : PpuAddr).toNat < 0x2000 ∧ 3 < 4 := by decide

/-- O52: an image, and five writes to an MMC1 with its port empty. -/
theorem witness_mapperWrites : demo.image.isSome = true ∧
    (let r : Mmc1 := { shift := 0, count := 0, lastWrite := 0, ctrl := 0x0C, chr0 := 0, chr1 := 0, prg := 0 }
     r.shift = 0 ∧ r.count = 0 ∧ stampOf 2 ≠ r.lastWrite + 1 ∧ stampOf 4 ≠ stampOf 2 + 1 ∧ stampOf 6 ≠ stampOf 4 + 1 ∧
       stampOf 8 ≠ stampOf 6 + 1 ∧ stampOf 10 ≠ stampOf 8 + 1 ∧ stampOf 1 = r.lastWrite + 1 ∧
       (0x7F : Byte).toNat < 128 ∧ 128 ≤ (0x80 : Byte).toNat) := by decide

/-- O52: an MMC3, and the two ends of each row of its register table. -/
theorem witness_mmc3Rows : (tweak demo fun m => { m with mapper := .mmc3 mmc3Demo }).mach.mapper = .mmc3 mmc3Demo ∧
    ([(0x8000, 0x8000), (0x9FFE, 0x8000), (0x8001, 0x8000), (0x9FFF, 0x8000), (0xA000, 0xA000), (0xBFFF, 0xA000),
      (0xC000, 0xC000), (0xDFFF, 0xC000), (0xE000, 0xE000), (0xFFFF, 0xE000)] : List (Word × Nat)).all (fun e =>
      decide (e.2 ≤ e.1.toNat ∧ e.1.toNat < e.2 + 0x2000)) = true := ⟨rfl, by decide⟩

/-- O53: a mapper that is no MMC3. -/
theorem witness_noMmc3 : ∀ r, Mapper.nrom ≠ .mmc3 r := by
  intro r h
  cases h

/-- The machine of the control surface's witnesses. -/
def running : State := { demo with host := { demo.host with control := .running } }

/-- O55. -/
theorem witness_running : running.Inv ∧ running.host.control = .running :=
  ⟨⟨witness_memoriesOk, witness_ppuOk.1, witness_apuOk, trivial, rfl, rfl⟩, rfl⟩

/-- O56: the state that is saved, and another machine of the same image to load it over. -/
theorem witness_snapshot : running.image = some (testImage 0xC000 [0xEA]) ∧ running.host.control.live = true ∧ running.Inv ∧
    SnapshotFits (testImage 0xC000 [0xEA]) running.mach ∧
    (irqHigh running).image = some (testImage 0xC000 [0xEA]) ∧ (irqHigh running).host.control.live = true ∧
    (irqHigh running).mach ≠ running.mach := by
  refine ⟨rfl, rfl, witness_running.1, ⟨by decide, trivial⟩, rfl, rfl, fun h => ?_⟩
  have := congrArg (fun m => m.apu.fc.irq) h
  exact absurd this (by decide)

/-- O57: no image; loadROM in Idle, not accepted in Error. -/
theorem witness_loadRom_states : State.reset.image = none ∧ State.reset.host.control = .idle ∧
    Control.error ≠ .idle ∧ Control.error.live = false := by decide

/-- The file of an iNES image with one PRG bank of zeros and the mapper nibble `lo`. -/
def romFile (lo : Byte) : List Byte :=
  ([0x4E, 0x45, 0x53, 0x1A, 1, 0, lo <<< 4, 0, 0, 0, 0, 0, 0, 0, 0, 0] : List Byte) ++ List.replicate 16384 0

/-- O57: a file that loads, and one whose mapper id 5 is not supported. -/
theorem witness_romFile (lo : Byte) : (romFile lo).length = 16 + 16384 ∧
    (romFile lo).take 4 = [0x4E, 0x45, 0x53, 0x1A] ∧ (romFile lo).getD 4 0 = 1 ∧ (romFile lo).getD 5 0 = 0 ∧
    (romFile lo).getD 6 0 = lo <<< 4 ∧ (romFile lo).getD 7 0 = 0 := by
  refine ⟨?_, rfl, rfl, rfl, rfl, rfl⟩
  rw [romFile, List.length_append, List.length_replicate]
  rfl

/-- A snapshot with a valid header for the demo's image and no payload. -/
def emptyBlob : List Byte :=
  [0x4E, 0x43, 0x53, 0x53, 1, 0, 0, 0] ++ le 4 (compatTag (testImage 0xC000 [0xEA])).toNat ++ [0, 0, 0, 0, 0, 0, 0, 0]

/-- O57: a valid header, whose body does not validate. (A body that does: O56's conclusion.) -/
theorem witness_badBody : headerOk (testImage 0xC000 [0xEA]) emptyBlob = true ∧
    readBody (testImage 0xC000 [0xEA]) demo.mach emptyBlob = none := by
  have h : ∀ t : BitVec 32, leValue (le 4 t.toNat) = t.toNat := by
    intro t
    simp only [le, leValue, BitVec.toNat_ofNat]
    omega
  constructor
  · unfold headerOk emptyBlob
    simp only [fieldAt]
    show (true && true && true && true && true && decide (leValue (le 4 _) = _)) = true
    rw [h]
    simp
  · rfl

/-- O58: before `init`, and after it in Idle and in Error. -/
theorem witness_control : (shutDown Config.allMappers).host.control = .notInitialised ∧ HostCall.start ≠ .init ∧
    State.reset.host.control ≠ .notInitialised ∧ State.reset.host.control = .idle := by decide

/-- O59: an image without a trainer. -/
theorem witness_noTrainer : (testImage 0xC000 []).trainer = none := by decide

/-- O60: two states that differ in their host side alone. -/
theorem witness_twoStates : demo.mach = running.mach ∧ demo.image = running.image ∧ demo.host ≠ running.host := by
  refine ⟨rfl, rfl, ?_⟩
  decide

end Sys2Proof.Machine
end

/-! A step does not depend on the host side (00_scope.md R8, 10_state.md R50). `SameCore` relates two states with the same
machine and image. Each piece of a step keeps the relation and delivers the same values on both sides; so does each
instruction, and so does a step. -/

namespace Sys2Proof.Machine

/-- The same machine and the same cartridge image: the two states differ at most in their host side. -/
structure SameCore (s t : State) : Prop where
  mach  : s.mach = t.mach
  image : s.image = t.image

/-- The same value, and states that differ at most in their host side. -/
structure SameResult {α : Type} (p q : α × State) : Prop where
  value : p.1 = q.1
  state : SameCore p.2 q.2

/-- Two outcomes that are next states which differ at most in their host side. -/
inductive SameNext : Outcome → Outcome → Prop where
  | next {s t : State} (h : SameCore s t) : SameNext (.next s) (.next t)

/-- Dot results that differ at most in the FrameBuffer. -/
structure SameDots (o o' : DotOut) : Prop where
  ppu    : o.ppu = o'.ppu
  mapper : o.mapper = o'.mapper
  done   : o.done = o'.done

theorem SameDots.ppuTick {o o' : DotOut} (w : PpuWorld) (h : SameDots o o') :
    SameDots (ppuTick w o) (ppuTick w o') := by
  unfold Machine.ppuTick
  rw [h.ppu, h.mapper, h.done]
  exact ⟨rfl, rfl, rfl⟩

namespace SameCore

variable {s t : State}

/-! ## What both states hold -/

theorem regs (h : SameCore s t) : s.mach.regs = t.mach.regs := congrArg MachineState.regs h.mach

theorem pc (h : SameCore s t) : s.mach.regs.pc = t.mach.regs.pc := congrArg Regs.pc h.regs

theorem stackAddr (h : SameCore s t) : stackAddr s = stackAddr t := congrArg (fun r : Regs => word 0x01 r.s) h.regs

theorem ppuWorld (h : SameCore s t) : s.ppuWorld = t.ppuWorld := by
  unfold State.ppuWorld
  rw [h.mach, h.image]

/-! ## The phases of a cycle -/

theorem threeDots (h : SameCore s t) : SameDots (threeDots s) (threeDots t) := by
  unfold Machine.threeDots
  rw [h.ppuWorld, h.mach]
  exact .ppuTick _ (.ppuTick _ (.ppuTick _ ⟨rfl, rfl, rfl⟩))

/-- The PPU publishes the FrameBuffer and does not read it. -/
theorem ppuPhase (h : SameCore s t) : SameCore (ppuPhase s) (ppuPhase t) where
  mach := by
    have hd := h.threeDots
    unfold Machine.ppuPhase
    dsimp only
    rw [hd.ppu, hd.mapper, hd.done, h.mach]
  image := h.image

/-- The channel enables and the AudioSampleBuffer have a part in the samples alone (62_apu.md R801). -/
theorem apuPhase (h : SameCore s t) : SameCore (apuPhase s) (apuPhase t) where
  mach := by
    unfold Machine.apuPhase
    dsimp only
    rw [h.mach]
  image := h.image

theorem samplePhase (h : SameCore s t) : SameCore (samplePhase s) (samplePhase t) where
  mach := by
    unfold Machine.samplePhase
    rw [h.mach]
  image := h.image

theorem endCycle (h : SameCore s t) : SameCore (endCycle s) (endCycle t) := h.ppuPhase.apuPhase.samplePhase

theorem busRead (h : SameCore s t) (a : Word) : SameResult (busRead a s) (busRead a t) := by
  obtain ⟨m, img, hostS⟩ := s
  obtain ⟨_, _, hostT⟩ := t
  obtain ⟨rfl, rfl⟩ := h
  unfold Machine.busRead
  cases region a <;> exact ⟨rfl, rfl, rfl⟩

theorem busWrite (h : SameCore s t) (a : Word) (v : Byte) : SameCore (busWrite a v s) (busWrite a v t) := by
  obtain ⟨m, img, hostS⟩ := s
  obtain ⟨_, _, hostT⟩ := t
  obtain ⟨rfl, rfl⟩ := h
  unfold Machine.busWrite
  cases region a <;> exact ⟨rfl, rfl⟩

/-! ## The primitives -/

theorem dummyRead (h : SameCore s t) {a b : Word} (ha : a = b) : SameCore (dummyRead a s) (dummyRead b t) :=
  ha ▸ (h.busRead a).state.endCycle

theorem dummyReadPc (h : SameCore s t) :
    SameCore (Machine.dummyRead s.mach.regs.pc s) (Machine.dummyRead t.mach.regs.pc t) := h.dummyRead h.pc

theorem memRead (h : SameCore s t) {a b : Word} (ha : a = b) : SameResult (memRead a s) (memRead b t) :=
  ⟨ha ▸ (h.busRead a).value, h.dummyRead ha⟩

theorem memWrite (h : SameCore s t) {a b : Word} (ha : a = b) {v w : Byte} (hv : v = w) :
    SameCore (memWrite a v s) (memWrite b w t) :=
  ha ▸ hv ▸ (h.busWrite a v).endCycle

theorem updateRegs (h : SameCore s t) {f g : Regs → Regs} (hf : f = g) :
    SameCore (updateRegs f s) (updateRegs g t) where
  mach := by
    unfold Machine.updateRegs
    rw [hf, h.mach]
  image := h.image

theorem updateHidden (h : SameCore s t) {f g : Hidden → Hidden} (hf : f = g) :
    SameCore (updateHidden f s) (updateHidden g t) where
  mach := by
    unfold Machine.updateHidden
    rw [hf, h.mach]
  image := h.image

theorem updateFlags (h : SameCore s t) {f g : Flags → Flags} (hf : f = g) :
    SameCore (updateFlags f s) (updateFlags g t) := hf ▸ h.updateRegs rfl

theorem setPc (h : SameCore s t) {a b : Word} (ha : a = b) : SameCore (setPc a s) (setPc b t) := ha ▸ h.updateRegs rfl

theorem incPc (h : SameCore s t) : SameCore (incPc s) (incPc t) := h.updateRegs rfl

theorem poll (h : SameCore s t) : SameCore (poll s) (poll t) := by
  have hp : pollResult s = pollResult t := by
    unfold pollResult
    rw [h.mach]
  exact h.updateHidden (by rw [hp])

theorem halt (h : SameCore s t) : SameCore (halt s) (halt t) := h.updateHidden rfl

theorem idle (h : SameCore s t) : SameCore (idle s) (idle t) := h.endCycle

theorem fetchByte (h : SameCore s t) : SameResult (fetchByte s) (fetchByte t) :=
  ⟨(h.memRead h.pc).value, (h.memRead h.pc).state.incPc⟩

/-! ## The stack -/

theorem push (h : SameCore s t) {v w : Byte} (hv : v = w) : SameCore (push v s) (push w t) :=
  (h.memWrite h.stackAddr hv).updateRegs rfl

theorem dummyReadStack (h : SameCore s t) :
    SameCore (Machine.dummyRead (Machine.stackAddr s) s) (Machine.dummyRead (Machine.stackAddr t) t) :=
  h.dummyRead h.stackAddr

theorem pull (h : SameCore s t) : SameResult (pull s) (pull t) :=
  have hp : SameCore (pullPrepare s) (pullPrepare t) := h.updateRegs rfl
  hp.memRead hp.stackAddr

theorem pushPc (h : SameCore s t) : SameCore (pushPc s) (pushPc t) :=
  (h.push (congrArg hi h.pc)).push (congrArg lo h.pc)

/-! ## Interrupts and reset -/

theorem vectorFetch (h : SameCore s t) {a b : Word} (ha : a = b) : SameCore (vectorFetch a s) (vectorFetch b t) := by
  subst ha
  have h6 := h.memRead (Eq.refl a)
  have hflags := h6.state.updateFlags (Eq.refl fun f => { f with i := true })
  have hpending := hflags.updateHidden (Eq.refl fun h => { h with nmiPending := h.nmiPending && a != nmiVector })
  have h7 := hpending.memRead (Eq.refl (a + 1))
  exact (h7.state.setPc (congrArg₂ word h7.value h6.value)).updateHidden (Eq.refl fun h => { h with intDue := false })

theorem enterHandler (h : SameCore s t) (b : Bool) : SameCore (enterHandler b s) (enterHandler b t) := by
  have h4 := h.pushPc
  have hvec : chooseVector (Machine.pushPc s) = chooseVector (Machine.pushPc t) := by
    unfold chooseVector
    rw [h4.mach]
  exact (h4.push (by rw [h4.regs])).vectorFetch hvec

theorem interruptSequence (h : SameCore s t) : SameCore (interruptSequence s) (interruptSequence t) :=
  h.dummyReadPc.dummyReadPc.enterHandler false

theorem returnFromInterrupt (h : SameCore s t) : SameCore (returnFromInterrupt s) (returnFromInterrupt t) := by
  have h4 := h.pull
  have h5 := (h4.state.updateFlags (congrArg (fun v _ => unpackP v) h4.value)).pull
  have h6 := h5.state.poll.pull
  exact h6.state.setPc (congrArg₂ word h6.value h5.value)

theorem resetStackCycle (h : SameCore s t) : SameCore (resetStackCycle s) (resetStackCycle t) :=
  h.dummyReadStack.updateRegs rfl

theorem resetSequence (h : SameCore s t) : SameCore (resetSequence s) (resetSequence t) := by
  have h2 := h.dummyReadPc.dummyReadPc
  have h6 := h2.resetStackCycle.resetStackCycle.resetStackCycle.memRead (Eq.refl resetVector)
  have hflags := h6.state.updateFlags (Eq.refl fun f => { f with i := true })
  have h7 := hflags.memRead (Eq.refl (resetVector + 1))
  exact (h7.state.setPc (congrArg₂ word h7.value h6.value)).updateHidden
    (Eq.refl fun h => { h with rstPending := false, jammed := false, intDue := false })

/-! ## DMA -/

theorem dmcFetched (h : SameCore s t) {b c : Byte} (hb : b = c) : SameCore (dmcFetched b s) (dmcFetched c t) where
  mach := by
    unfold Machine.dmcFetched
    rw [hb, h.mach]
  image := h.image

theorem dmcStall (h : SameCore s t) : SameCore (dmcStall s) (dmcStall t) :=
  have h3 := h.idle.idle.idle
  have hr := h3.memRead (congrArg (fun m : MachineState => m.apu.dmc.addr) h3.mach)
  hr.state.dmcFetched hr.value

theorem clearDmaReq (h : SameCore s t) : SameCore (clearDmaReq s) (clearDmaReq t) where
  mach := by
    unfold Machine.clearDmaReq
    rw [h.mach]
  image := h.image

theorem dmaAlign (h : SameCore s t) : SameCore (dmaAlign s) (dmaAlign t) := by
  unfold Machine.dmaAlign
  rw [h.mach]
  split
  · exact h.idle
  · exact h

theorem oamPair (h : SameCore s t) (p i : Byte) : SameCore (oamPair p i s) (oamPair p i t) :=
  have hr := h.memRead rfl
  hr.state.memWrite rfl hr.value

theorem oamCopy (h : SameCore s t) (p : Byte) : ∀ n, SameCore (oamCopy p n s) (oamCopy p n t)
  | 0 => h
  | n + 1 => (oamCopy h p n).oamPair p _

theorem oamDma (h : SameCore s t) : SameCore (oamDma s) (oamDma t) := by
  unfold Machine.oamDma
  rw [h.mach]
  exact (h.idle.dmaAlign.oamCopy _ 256).clearDmaReq

theorem runDma (h : SameCore s t) : SameCore (runDma s) (runDma t) := by
  unfold Machine.runDma
  rw [h.mach]
  split
  · exact h.oamDma
  · exact h

/-! ## Addressing modes -/

theorem fixCycle (h : SameCore s t) (always : Bool) {base base' : Word} (hb : base = base') {index index' : Byte}
    (hx : index = index') : SameCore (fixCycle always base index s) (fixCycle always base' index' t) := by
  subst hb hx
  unfold Machine.fixCycle
  split
  · exact h.dummyRead rfl
  · exact h

theorem zpPointer (h : SameCore s t) {p q : Byte} (hp : p = q) : SameResult (zpPointer p s) (zpPointer q t) := by
  subst hp
  have h1 := h.memRead (Eq.refl (zpAddr p))
  have h2 := h1.state.memRead (Eq.refl (zpAddr (p + 1)))
  exact ⟨congrArg₂ word h2.value h1.value, h2.state⟩

theorem addrZp (h : SameCore s t) (nn : Byte) : SameResult (addrZp nn s) (addrZp nn t) := ⟨rfl, h⟩

theorem addrAbs (h : SameCore s t) (addr : Word) : SameResult (addrAbs addr s) (addrAbs addr t) := ⟨rfl, h⟩

theorem addrZpIndexed (h : SameCore s t) (index : Regs → Byte) (nn : Byte) :
    SameResult (addrZpIndexed index nn s) (addrZpIndexed index nn t) :=
  ⟨congrArg (fun r => zpAddr (nn + index r)) h.regs, h.dummyRead rfl⟩

theorem addrAbsIndexed (h : SameCore s t) (always : Bool) (index : Regs → Byte) (addr : Word) :
    SameResult (addrAbsIndexed always index addr s) (addrAbsIndexed always index addr t) :=
  have hx := congrArg index h.regs
  ⟨congrArg (indexed addr) hx, h.fixCycle always rfl hx⟩

theorem addrIzx (h : SameCore s t) (nn : Byte) : SameResult (addrIzx nn s) (addrIzx nn t) :=
  (h.dummyRead rfl).zpPointer (congrArg (fun r : Regs => nn + r.x) h.regs)

theorem addrIzy (h : SameCore s t) (always : Bool) (nn : Byte) :
    SameResult (addrIzy always nn s) (addrIzy always nn t) :=
  have hp := h.zpPointer (Eq.refl nn)
  have hy := congrArg Regs.y h.regs
  ⟨congrArg₂ indexed hp.value hy, hp.state.fixCycle always hp.value hy⟩

/-! ## Branches, implied mode and the SH group -/

theorem implied (h : SameCore s t) (op : Regs → Regs) : SameCore (implied op s) (implied op t) :=
  h.poll.dummyReadPc.updateRegs rfl

theorem shStore (h : SameCore s t) (src : Regs → Byte) {base base' : Word} (hb : base = base') {index index' : Byte}
    (hx : index = index') : SameCore (shStore src base index s) (shStore src base' index' t) := by
  subst hb hx
  have hv : src s.mach.regs &&& shHigh base = src t.mach.regs &&& shHigh base := by rw [h.regs]
  exact (h.fixCycle true rfl rfl).poll.memWrite (congrArg _ hv) hv

theorem branch (h : SameCore s t) (cond : Flags → Bool) (oo : Byte) :
    SameCore (branch cond oo s) (branch cond oo t) := by
  unfold Machine.branch
  dsimp only
  rw [h.regs]
  have h3 (a0 a : Word) :
      SameCore (Machine.setPc a (Machine.dummyRead a0 s)) (Machine.setPc a (Machine.dummyRead a0 t)) :=
    (h.dummyRead rfl).setPc rfl
  split
  · split
    · exact h3 _ _
    · exact ((h3 _ _).poll.dummyRead (h3 _ _).pc).setPc rfl
  · exact h

end SameCore

/-! ## Access classes -/

namespace SameResult

variable {s t : State} {addr : AddrFn}

theorem classR (h : SameResult (addr s) (addr t)) (op : Byte → Regs → Regs) :
    SameCore (classR op addr s) (classR op addr t) :=
  have hr := h.state.poll.memRead h.value
  hr.state.updateRegs (congrArg op hr.value)

theorem classW (h : SameResult (addr s) (addr t)) (val : Regs → Byte) :
    SameCore (classW val addr s) (classW val addr t) :=
  h.state.poll.memWrite h.value (congrArg val h.state.regs)

theorem classM (h : SameResult (addr s) (addr t)) (op : Byte → Regs → Byte × Regs) :
    SameCore (classM op addr s) (classM op addr t) := by
  have hr := h.state.memRead h.value
  have hw := (hr.state.memWrite h.value hr.value).poll
  have hnew := congrArg₂ (fun old r => (op old r).1) hr.value hw.regs
  exact (hw.memWrite h.value hnew).updateRegs (congrArg (fun old r => (op old r).2) hr.value)

end SameResult

theorem SameNext.finish {o o' : Outcome} (h : SameNext o o') : SameNext (finish o) (finish o') := by
  cases h with
  | next h => exact .next h.runDma

namespace SameCore

variable {s t : State}

/-! ## Instructions -/

theorem execJsrAbs (h : SameCore s t) (addr : Word) : SameNext (execJsrAbs addr s) (execJsrAbs addr t) := by
  have h5 := h.dummyReadStack.pushPc.poll
  have h6 := h5.memRead h5.pc
  exact .next (h6.state.setPc (by rw [h6.value]))

theorem execRts (h : SameCore s t) : SameNext (execRts s) (execRts t) := by
  have h4 := h.dummyReadPc.dummyReadStack.pull
  have h5 := h4.state.pull
  have ha := congrArg₂ word h5.value h4.value
  exact .next ((h5.state.poll.dummyRead ha).setPc (congrArg (· + 1) ha))

theorem execJmpInd (h : SameCore s t) (addr : Word) : SameNext (execJmpInd addr s) (execJmpInd addr t) := by
  have h4 := h.memRead (Eq.refl addr)
  have h5 := h4.state.poll.memRead (Eq.refl (word (hi addr) (lo addr + 1)))
  exact .next (h5.state.setPc (congrArg₂ word h5.value h4.value))

theorem execPhp (h : SameCore s t) : SameNext (execPhp s) (execPhp t) :=
  have h2 := h.dummyReadPc.poll
  .next (h2.push (by rw [h2.regs]))

theorem execPha (h : SameCore s t) : SameNext (execPha s) (execPha t) :=
  have h2 := h.dummyReadPc.poll
  .next (h2.push (congrArg Regs.a h2.regs))

theorem execPlp (h : SameCore s t) : SameNext (execPlp s) (execPlp t) :=
  have h4 := h.dummyReadPc.dummyReadStack.poll.pull
  .next (h4.state.updateFlags (by rw [h4.value]))

theorem execPla (h : SameCore s t) : SameNext (execPla s) (execPla t) :=
  have h4 := h.dummyReadPc.dummyReadStack.poll.pull
  .next (h4.state.updateRegs (congrArg Regs.loadA h4.value))

theorem execShaIzy (h : SameCore s t) (nn : Byte) : SameNext (execShaIzy nn s) (execShaIzy nn t) :=
  have hp := h.zpPointer (Eq.refl nn)
  .next (hp.state.shStore _ hp.value (congrArg Regs.y hp.state.regs))

/-- Each instruction is one of the shapes above. -/
theorem exec (h : SameCore s t) (i : Instr) : SameNext (exec i s) (exec i t) := by
  cases i with
  | oraIzx _ | andIzx _ | eorIzx _ | adcIzx _ | ldaIzx _ | laxIzx _ | cmpIzx _ | sbcIzx _ =>
    exact .next ((h.addrIzx _).classR _)
  | nopZp04 _ | oraZp _ | bitZp _ | andZp _ | nopZp44 _ | eorZp _ | nopZp64 _ | adcZp _ | ldyZp _ | ldaZp _ | ldxZp _
  | laxZp _ | cpyZp _ | cmpZp _ | cpxZp _ | sbcZp _ => exact .next ((h.addrZp _).classR _)
  | nopAbs0C _ | oraAbs _ | bitAbs _ | andAbs _ | eorAbs _ | adcAbs _ | ldyAbs _ | ldaAbs _ | ldxAbs _ | laxAbs _
  | cpyAbs _ | cmpAbs _ | cpxAbs _ | sbcAbs _ => exact .next ((h.addrAbs _).classR _)
  | oraIzy _ | andIzy _ | eorIzy _ | adcIzy _ | ldaIzy _ | laxIzy _ | cmpIzy _ | sbcIzy _ =>
    exact .next ((h.addrIzy _ _).classR _)
  | nopZpx14 _ | oraZpx _ | nopZpx34 _ | andZpx _ | nopZpx54 _ | eorZpx _ | nopZpx74 _ | adcZpx _ | ldyZpx _
  | ldaZpx _ | ldxZpy _ | laxZpy _ | nopZpxD4 _ | cmpZpx _ | nopZpxF4 _ | sbcZpx _ =>
    exact .next ((h.addrZpIndexed _ _).classR _)
  | oraAby _ | nopAbx1C _ | oraAbx _ | andAby _ | nopAbx3C _ | andAbx _ | eorAby _ | nopAbx5C _ | eorAbx _ | adcAby _
  | nopAbx7C _ | adcAbx _ | ldaAby _ | lasAby _ | ldyAbx _ | ldaAbx _ | ldxAby _ | laxAby _ | cmpAby _ | nopAbxDC _
  | cmpAbx _ | sbcAby _ | nopAbxFC _ | sbcAbx _ => exact .next ((h.addrAbsIndexed _ _ _).classR _)
  | staIzx _ | saxIzx _ => exact .next ((h.addrIzx _).classW _)
  | styZp _ | staZp _ | stxZp _ | saxZp _ => exact .next ((h.addrZp _).classW _)
  | styAbs _ | staAbs _ | stxAbs _ | saxAbs _ => exact .next ((h.addrAbs _).classW _)
  | staIzy _ => exact .next ((h.addrIzy _ _).classW _)
  | styZpx _ | staZpx _ | stxZpy _ | saxZpy _ => exact .next ((h.addrZpIndexed _ _).classW _)
  | staAby _ | staAbx _ => exact .next ((h.addrAbsIndexed _ _ _).classW _)
  | sloIzx _ | rlaIzx _ | sreIzx _ | rraIzx _ | dcpIzx _ | iscIzx _ => exact .next ((h.addrIzx _).classM _)
  | aslZp _ | sloZp _ | rolZp _ | rlaZp _ | lsrZp _ | sreZp _ | rorZp _ | rraZp _ | decZp _ | dcpZp _ | incZp _
  | iscZp _ => exact .next ((h.addrZp _).classM _)
  | aslAbs _ | sloAbs _ | rolAbs _ | rlaAbs _ | lsrAbs _ | sreAbs _ | rorAbs _ | rraAbs _ | decAbs _ | dcpAbs _
  | incAbs _ | iscAbs _ => exact .next ((h.addrAbs _).classM _)
  | sloIzy _ | rlaIzy _ | sreIzy _ | rraIzy _ | dcpIzy _ | iscIzy _ => exact .next ((h.addrIzy _ _).classM _)
  | aslZpx _ | sloZpx _ | rolZpx _ | rlaZpx _ | lsrZpx _ | sreZpx _ | rorZpx _ | rraZpx _ | decZpx _ | dcpZpx _
  | incZpx _ | iscZpx _ => exact .next ((h.addrZpIndexed _ _).classM _)
  | sloAby _ | aslAbx _ | sloAbx _ | rlaAby _ | rolAbx _ | rlaAbx _ | sreAby _ | lsrAbx _ | sreAbx _ | rraAby _
  | rorAbx _ | rraAbx _ | dcpAby _ | decAbx _ | dcpAbx _ | iscAby _ | incAbx _ | iscAbx _ =>
    exact .next ((h.addrAbsIndexed _ _ _).classM _)
  | oraImm _ | ancImm0B _ | andImm _ | ancImm2B _ | eorImm _ | alrImm _ | adcImm _ | arrImm _ | nopImm80 _
  | nopImm82 _ | nopImm89 _ | aneImm _ | ldyImm _ | ldxImm _ | ldaImm _ | lxaImm _ | cpyImm _ | nopImmC2 _ | cmpImm _
  | sbxImm _ | cpxImm _ | nopImmE2 _ | sbcImm _ | sbcImmEB _ => exact .next (h.updateRegs rfl)
  | aslA | clc | nopImp1A | rolA | sec | nopImp3A | lsrA | cli | nopImp5A | rorA | sei | nopImp7A | dey | txa | tya
  | txs | tay | tax | clv | tsx | iny | dex | cld | nopImpDA | inx | nop | sed | nopImpFA => exact .next (h.implied _)
  | jam02 | jam12 | jam22 | jam32 | jam42 | jam52 | jam62 | jam72 | jam92 | jamB2 | jamD2 | jamF2 =>
    exact .next h.halt
  | bpl _ | bmi _ | bvc _ | bvs _ | bcc _ | bcs _ | bne _ | beq _ => exact .next (h.branch _ _)
  | jmpAbs _ => exact .next (h.setPc rfl)
  | brk _ => exact .next (h.enterHandler _)
  | php => exact h.execPhp
  | pha => exact h.execPha
  | jsrAbs _ => exact h.execJsrAbs _
  | plp => exact h.execPlp
  | rti => exact .next h.dummyReadPc.dummyReadStack.returnFromInterrupt
  | rts => exact h.execRts
  | pla => exact h.execPla
  | jmpInd _ => exact h.execJmpInd _
  | shaIzy _ => exact h.execShaIzy _
  | tasAby _ => exact .next ((h.shStore _ rfl (congrArg Regs.y h.regs)).updateRegs rfl)
  | shyAbx _ => exact .next (h.shStore _ rfl (congrArg Regs.x h.regs))
  | shxAby _ => exact .next (h.shStore _ rfl (congrArg Regs.y h.regs))
  | shaAby _ => exact .next (h.shStore _ rfl (congrArg Regs.y h.regs))

/-! ## A step -/

theorem fetchOpcode (h : SameCore s t) : SameResult (fetchOpcode s) (fetchOpcode t) where
  value := h.fetchByte.value
  state := by
    unfold Machine.fetchOpcode
    dsimp only
    rw [h.fetchByte.value]
    split
    · exact h.fetchByte.state.poll
    · exact h.fetchByte.state

theorem fetchThird (h : SameCore s t) (op : Byte) : SameResult (fetchThird op s) (fetchThird op t) := by
  unfold Machine.fetchThird
  split
  · exact ⟨(h.memRead h.pc).value, h⟩
  · split
    · exact h.poll.fetchByte
    · exact h.fetchByte

theorem fetchInstr (h : SameCore s t) :
    (fetchInstr s).bytes = (fetchInstr t).bytes ∧ SameCore (fetchInstr s).state (fetchInstr t).state := by
  have h1 := h.fetchOpcode
  have h2 := h1.state.fetchByte
  have h3 := h2.state.fetchThird (Machine.fetchOpcode s).1
  unfold Machine.fetchInstr
  dsimp only
  rw [← h1.value]
  split
  · exact ⟨rfl, h1.state⟩
  · exact ⟨by rw [h2.value], h2.state⟩
  · exact ⟨by rw [h2.value, h3.value], h3.state⟩

theorem stepKind (h : SameCore s t) : stepKind s = stepKind t := by
  unfold Machine.stepKind
  rw [h.mach]

theorem instructionStep (h : SameCore s t) : SameNext (instructionStep s) (instructionStep t) := by
  obtain ⟨hb, hs⟩ := h.fetchInstr
  obtain ⟨i, hdec⟩ := fetchInstr_decodes t
  unfold Machine.instructionStep
  rw [hb, hdec]
  exact (hs.exec i).finish

theorem step (h : SameCore s t) : SameNext (step s) (step t) := by
  unfold Machine.step
  rw [h.stepKind]
  cases Machine.stepKind t with
  | reset => exact .next h.resetSequence
  | dmcStall => exact .next h.dmcStall
  | jammed => exact .next h.idle
  | interrupt => exact .next h.interruptSequence
  | instruction => exact h.instructionStep

end SameCore

/-- Settles O60: every piece of a step keeps `SameCore`, so the step does (`SameCore.step`). -/
theorem stepDependsOnMachineAndImageOnly : Obligations.StepDependsOnMachineAndImageOnly := by
  unfold Obligations.StepDependsOnMachineAndImageOnly
  intro s s' t t' hmach himage hs hs'
  have h := SameCore.step ⟨hmach, himage⟩
  rw [hs, hs'] at h
  cases h with
  | next h => exact ⟨h.mach, h.image⟩

end Sys2Proof.Machine

/-! An instruction step fetches what memory holds at PC (10_state.md R55, 40_addressing.md R201). The bytes fetched decode as
the three bytes in memory do; `FetchCycles n` is what `n` fetch cycles change beside the interrupt decision, and the decision
has a lemma of its own, by the polls that fall among the cycles (R203, R213; 44_control_flow.md R409). -/

namespace Sys2Proof

/-! ## The operand bytes leave the format alone -/

/-- The opcode and the mode of an instruction, which together fix its length (30_encoding.md R150, R151). -/
def Instr.format (i : Instr) : Byte × Mode := (opcodeOf i, i.mode)

theorem Instr.length_eq (i : Instr) :
    i.length = if i.format.1 = 0x00 then 2 else i.format.2.operandBytes + 1 := by
  cases i <;> rfl

/-- The opcode map read as a table of formats: the operand bytes have no part in it. -/
theorem opcodeMap_formats (l h : Byte) : opcodeMap.map (List.map fun f => (f l h).format) =
    opcodeMap.map (List.map fun f => (f 0 0).format) := by
  simp only [opcodeMap, opcodeRow0, opcodeRow1, opcodeRow2, opcodeRow3, opcodeRow4, opcodeRow5, opcodeRow6, opcodeRow7,
    opcodeRow8, opcodeRow9, opcodeRowA, opcodeRowB, opcodeRowC, opcodeRowD, opcodeRowE, opcodeRowF, List.map]
  rfl

theorem format_decodeOp_eq_getD (op l h : Byte) : (decodeOp op l h).format =
    ((opcodeMap.map (List.map fun f => (f l h).format)).getD (op.toNat / 16) []).getD (op.toNat % 16)
      (Instr.format .nop) := by
  have hrow := List.getD_map opcodeMap [] (n := op.toNat / 16) (List.map fun f => (f l h).format)
  have hentry := List.getD_map (opcodeMap.getD (op.toNat / 16) []) (fun _ _ => .nop) (n := op.toNat % 16)
    (fun f => (f l h).format)
  exact hentry.symm.trans (congrArg (fun row => row.getD (op.toNat % 16) (Instr.format .nop)) hrow.symm)

/-- The opcode byte alone decides the format (30_encoding.md R150, R157). -/
theorem format_decodeOp (op l h : Byte) : (decodeOp op l h).format = (decodeOp op 0 0).format := by
  rw [format_decodeOp_eq_getD, format_decodeOp_eq_getD, opcodeMap_formats]

theorem mode_decodeOp (op l h : Byte) : (decodeOp op l h).mode = (decodeOp op 0 0).mode :=
  congrArg Prod.snd (format_decodeOp op l h)

theorem length_decodeOp (op l h : Byte) : (decodeOp op l h).length = opcodeLength op := by
  rw [opcodeLength, Instr.length_eq, Instr.length_eq, format_decodeOp]

/-- Three bytes decode to an instruction of the opcode's format, and so does the part of them that the opcode counts. -/
theorem decode_take_opcodeLength (b0 b1 b2 : Byte) : ∃ l h rest,
    decode [b0, b1, b2] = .ok (decodeOp b0 l h, rest) ∧
      decode ([b0, b1, b2].take (opcodeLength b0)) = .ok (decodeOp b0 l h, []) := by
  rcases opcodeLength_cases b0 with hn | hn | hn <;> rw [hn]
  · exact ⟨0, 0, _, decode_one hn _, decode_one hn []⟩
  · exact ⟨b1, 0, _, decode_two hn _ _, decode_two hn _ []⟩
  · exact ⟨b1, b2, _, decode_three hn _ _ _, decode_three hn _ _ []⟩

end Sys2Proof

namespace Sys2Proof.Machine

/-! ## Fetch cycles -/

/-- What `n` fetch cycles do to the registers, the count, the jam and the memories. Of the interrupt decision it says
nothing: the fetch of an instruction may hold a poll. -/
structure FetchCycles (n : Nat) (s t : State) : Prop where
  regs   : t.mach.regs = { s.mach.regs with pc := s.mach.regs.pc + BitVec.ofNat 16 n }
  cycles : t.mach.hidden.cycles = s.mach.hidden.cycles + n
  jammed : t.mach.hidden.jammed = s.mach.hidden.jammed
  kept   : Kept s t
  quiet  : Quiet s t

namespace FetchCycles

variable {m n : Nat} {s t u : State}

theorem pc (h : FetchCycles n s t) : t.mach.regs.pc = s.mach.regs.pc + BitVec.ofNat 16 n := congrArg Regs.pc h.regs

theorem refl (s : State) : FetchCycles 0 s s :=
  ⟨congrArg (fun a => { s.mach.regs with pc := a }) (BitVec.add_zero _).symm, rfl, rfl, .refl s, .refl s⟩

theorem trans (h : FetchCycles m s t) (g : FetchCycles n t u) : FetchCycles (m + n) s u where
  regs := by rw [g.regs, h.regs, BitVec.ofNat_add, BitVec.add_assoc]
  cycles := by rw [g.cycles, h.cycles, Nat.add_assoc]
  jammed := g.jammed.trans h.jammed
  kept := h.kept.trans g.kept
  quiet := h.quiet.trans g.quiet

theorem poll (h : FetchCycles n s t) : FetchCycles n s (poll t) :=
  ⟨h.regs, h.cycles, h.jammed, h.kept.trans (kept_poll t), h.quiet.trans (quiet_poll t)⟩

theorem fetchByte (h : FetchCycles n s t) : FetchCycles (n + 1) s (fetchByte t).2 :=
  h.trans
    { regs := congrArg (fun r : Regs => { r with pc := r.pc + 1 }) (dummyRead_regs t.mach.regs.pc t)
      cycles := dummyRead_cycles _ t
      jammed := dummyRead_jammed _ t
      kept := (kept_dummyRead _ t).trans (kept_updateRegs (fun r => { r with pc := r.pc + 1 }) _)
      quiet := (quiet_dummyRead _ t).trans (quiet_updateRegs (fun r => { r with pc := r.pc + 1 }) _) }

/-- After `n` fetch cycles the next byte fetched is the one memory holds `n` above the first PC. -/
theorem peek_pc (h : FetchCycles n s t) {b : Byte} (hb : memByte (s.mach.regs.pc + BitVec.ofNat 16 n) s = some b) :
    peek t.mach.regs.pc t = b := by
  rw [h.pc]
  exact peek_memByte ((h.quiet.memByte _).trans hb)

end FetchCycles

theorem fetchByte_fst (s : State) : (fetchByte s).1 = peek s.mach.regs.pc s := rfl

theorem fetchByte_intDue (s : State) : (fetchByte s).2.mach.hidden.intDue = s.mach.hidden.intDue := dummyRead_intDue _ s

theorem fetchByte_pc (s : State) : (fetchByte s).2.mach.regs.pc = s.mach.regs.pc + 1 :=
  ((FetchCycles.refl s).fetchByte).pc

/-! ## The parts of a fetch -/

/-- How many bytes the fetch consumes: JSR's third byte is only looked at (44_control_flow.md R411; log entry 11). -/
def fetchedCount (op : Byte) : Nat := if op = 0x20 then 2 else opcodeLength op

theorem fetchOpcode_cycles (s : State) : FetchCycles 1 s (fetchOpcode s).2 := by
  have h := (FetchCycles.refl s).fetchByte
  unfold fetchOpcode
  dsimp only
  split
  · exact h.poll
  · exact h

theorem fetchOpcode_intDue (s : State) : (fetchOpcode s).2.mach.hidden.intDue =
    if pollsAtC1 (fetchByte s).1 then pollResult (fetchByte s).2 else s.mach.hidden.intDue := by
  unfold fetchOpcode
  dsimp only
  split
  · rfl
  · exact fetchByte_intDue s

theorem fetchThird_fst (op : Byte) (s : State) : (fetchThird op s).1 = peek s.mach.regs.pc s := by
  unfold fetchThird
  split
  · rfl
  · split
    · exact peek_poll _ s
    · rfl

theorem fetchThird_cycles {n : Nat} {s t : State} (h : FetchCycles n s t) (op : Byte) :
    FetchCycles (if op = 0x20 then n else n + 1) s (fetchThird op t).2 := by
  unfold fetchThird
  split
  · exact h
  · split
    · exact h.poll.fetchByte
    · exact h.fetchByte

theorem fetchThird_intDue (op : Byte) (s : State) : (fetchThird op s).2.mach.hidden.intDue =
    if op = 0x4C then pollResult s else s.mach.hidden.intDue := by
  unfold fetchThird
  by_cases hj : op = 0x20
  · rw [if_pos hj, if_neg (by rw [hj]; decide)]
  · rw [if_neg hj, fetchByte_intDue]
    split <;> rfl

/-! ## The fetch of an instruction, by its length -/

theorem fetchInstr_one {s : State} (h : opcodeLength (fetchByte s).1 = 1) :
    fetchInstr s = { bytes := [(fetchByte s).1], state := (fetchOpcode s).2 } := by
  have hop : opcodeLength (fetchOpcode s).1 = 1 := h
  simp only [fetchInstr, hop]
  rfl

theorem fetchInstr_two {s : State} (h : opcodeLength (fetchByte s).1 = 2) :
    fetchInstr s = { bytes := [(fetchByte s).1, (fetchByte (fetchOpcode s).2).1]
                     state := (fetchByte (fetchOpcode s).2).2 } := by
  have hop : opcodeLength (fetchOpcode s).1 = 2 := h
  simp only [fetchInstr, hop]
  rfl

theorem fetchInstr_three {s : State} (h : opcodeLength (fetchByte s).1 = 3) :
    let third := fetchThird (fetchByte s).1 (fetchByte (fetchOpcode s).2).2
    fetchInstr s = { bytes := [(fetchByte s).1, (fetchByte (fetchOpcode s).2).1, third.1], state := third.2 } := by
  have hop : opcodeLength (fetchOpcode s).1 = 3 := h
  simp only [fetchInstr, hop]
  rfl

/-- JSR and JMP absolute have three bytes. -/
theorem ne_of_opcodeLength {op : Byte} (h : opcodeLength op ≠ 3) : op ≠ 0x20 ∧ op ≠ 0x4C :=
  ⟨fun e => h (by rw [e]; decide), fun e => h (by rw [e]; decide)⟩

theorem fetchInstr_cycles (s : State) : FetchCycles (fetchedCount (fetchByte s).1) s (fetchInstr s).state := by
  have h1 := fetchOpcode_cycles s
  unfold fetchedCount
  rcases opcodeLength_cases (fetchByte s).1 with hn | hn | hn
  · rw [fetchInstr_one hn, if_neg (ne_of_opcodeLength (by omega)).1, hn]
    exact h1
  · rw [fetchInstr_two hn, if_neg (ne_of_opcodeLength (by omega)).1, hn]
    exact h1.fetchByte
  · rw [fetchInstr_three hn, hn]
    exact fetchThird_cycles h1.fetchByte _

/-- The interrupt decision after a fetch: the poll after c1, that of JMP absolute after c2, or no poll. -/
theorem fetchInstr_intDue (s : State) : (fetchInstr s).state.mach.hidden.intDue =
    if pollsAtC1 (fetchByte s).1 then pollResult (fetchByte s).2
    else if (fetchByte s).1 = 0x4C then pollResult (fetchByte (fetchByte s).2).2
    else s.mach.hidden.intDue := by
  rcases opcodeLength_cases (fetchByte s).1 with hn | hn | hn
  · rw [fetchInstr_one hn, if_neg (ne_of_opcodeLength (by omega)).2, fetchOpcode_intDue]
  · rw [fetchInstr_two hn, if_neg (ne_of_opcodeLength (by omega)).2, fetchByte_intDue, fetchOpcode_intDue]
  · rw [fetchInstr_three hn, fetchThird_intDue, fetchByte_intDue, fetchOpcode_intDue]
    by_cases hj : (fetchByte s).1 = 0x4C
    · have hp : ¬ pollsAtC1 (fetchByte s).1 = true := by rw [hj]; decide
      rw [if_pos hj, if_neg hp, if_pos hj, fetchOpcode, if_neg hp]
    · rw [if_neg hj, if_neg hj]

/-- The bytes fetched are those memory holds at PC, as many as the opcode counts. -/
theorem fetchInstr_bytes {s : State} {b0 b1 b2 : Byte} (h0 : memByte s.mach.regs.pc s = some b0)
    (h1 : memByte (s.mach.regs.pc + 1) s = some b1) (h2 : memByte (s.mach.regs.pc + 2) s = some b2) :
    (fetchInstr s).bytes = [b0, b1, b2].take (opcodeLength b0) := by
  have c1 := fetchOpcode_cycles s
  have e0 : (fetchByte s).1 = b0 := peek_memByte h0
  have e1 : (fetchByte (fetchOpcode s).2).1 = b1 := (fetchByte_fst _).trans (c1.peek_pc h1)
  have e2 (op : Byte) : (fetchThird op (fetchByte (fetchOpcode s).2).2).1 = b2 :=
    (fetchThird_fst _ _).trans (c1.fetchByte.peek_pc h2)
  rcases opcodeLength_cases b0 with hn | hn | hn <;> rw [hn]
  · rw [fetchInstr_one (by rw [e0, hn]), e0]; rfl
  · rw [fetchInstr_two (by rw [e0, hn]), e0, e1]; rfl
  · rw [fetchInstr_three (by rw [e0, hn]), e0, e1, e2]; rfl

/-! ## The step -/

theorem step_eq_finish_exec {s : State} {i : Instr} {rest : List Byte} (hk : stepKind s = .instruction)
    (hd : decode (fetchInstr s).bytes = .ok (i, rest)) : step s = finish (exec i (fetchInstr s).state) := by
  simp only [step, hk, instructionStep, hd]

/-- The poll after c1 is decided by the mode of the instruction decoded, whatever its operand bytes. -/
theorem pollsAtC1_iff_mode (op l h : Byte) : pollsAtC1 op = true ↔
    (decodeOp op l h).mode = .immediate ∨ (decodeOp op l h).mode = .relative := by
  rw [mode_decodeOp, pollsAtC1, Bool.or_eq_true, beq_iff_eq, beq_iff_eq]

theorem fetchedCount_eq (op l h : Byte) : fetchedCount op = if op = 0x20 then 2 else (decodeOp op l h).length := by
  rw [length_decodeOp, fetchedCount]

/-- The second poll state, that of JMP absolute, in terms of the reads at PC and above it. -/
theorem pollResult_fetchByte_twice (s : State) : pollResult (fetchByte (fetchByte s).2).2 =
    pollResult (dummyRead (s.mach.regs.pc + 1) (incPc (dummyRead s.mach.regs.pc s))) := by
  rw [← fetchByte_pc s]
  rfl

/-- Settles O6: the bytes fetched are those memory holds (`fetchInstr_bytes`), so they decode alike; the state that `exec`
starts from is the one after the fetch (`fetchInstr_cycles`, `fetchInstr_intDue`). -/
theorem stepRunsTheInstructionInMemory : Obligations.StepRunsTheInstructionInMemory := by
  unfold Obligations.StepRunsTheInstructionInMemory
  intro s b0 b1 b2 pc hk h0 h1 h2
  obtain ⟨l, h, rest, hdec, htake⟩ := decode_take_opcodeLength b0 b1 b2
  rw [← fetchInstr_bytes h0 h1 h2] at htake
  have e0 : (fetchByte s).1 = b0 := peek_memByte h0
  have hc := fetchInstr_cycles s
  have hdue := fetchInstr_intDue s
  rw [e0, fetchedCount_eq b0 l h] at hc
  simp only [e0, pollsAtC1_iff_mode b0 l h, pollResult_fetchByte_twice] at hdue
  exact ⟨decodeOp b0 l h, rest, (fetchInstr s).state, hdec, step_eq_finish_exec hk htake, hc.regs, hc.cycles, hc.jammed,
    hdue, hc.kept, hc.quiet.memoryKept⟩

end Sys2Proof.Machine

/-! The step's invariant and its frame (20_memory.md R105, R115, R120). A step is a path of pieces (`step_runs`), and each piece
keeps the ranges, the canonical memories and the settled latch; no kind of step leaves an OAM DMA request pending. -/

namespace Sys2Proof.Machine

/-! ## The invariant -/

theorem instructionStep_dmaReq {s t : State} (h : instructionStep s = .next t) : t.mach.dmaReq = false := by
  obtain ⟨i, hi⟩ := fetchInstr_decodes s
  simp only [instructionStep, hi] at h
  exact finish_dmaReq h

/-- No step leaves an OAM DMA request pending: an instruction runs the one it asks for, and the other kinds ask for none
(20_memory.md R115). -/
theorem step_dmaReq {s t : State} (hs : s.mach.dmaReq = false) (h : step s = .next t) : t.mach.dmaReq = false := by
  unfold step at h
  cases hk : stepKind s <;> rw [hk] at h
  case reset => cases h; exact (resetSequence_dmaReq s).trans hs
  case dmcStall => cases h; exact (dmcStall_dmaReq s).trans hs
  case jammed => cases h; exact (endCycle_dmaReq s).trans hs
  case interrupt => cases h; exact (interruptSequence_dmaReq s).trans hs
  case instruction => exact instructionStep_dmaReq h

theorem micro_of_step {s t : State} (h : step s = .next t) : Micro s t := by
  obtain ⟨u, hu, hm⟩ := step_runs s
  cases hu.symm.trans h
  exact hm

/-- Settles O8: the step is a path of pieces (`micro_of_step`), which keep the ranges (`micro_coreOk`) and the settled latch
(`micro_settled`); no request stays pending (`step_dmaReq`). -/
theorem everyStepKeepsTheInvariant : Obligations.EveryStepKeepsTheInvariant := by
  unfold Obligations.EveryStepKeepsTheInvariant
  intro s t hs h
  have hm := micro_of_step h
  obtain ⟨memories, ppu, apu, mapper⟩ := micro_coreOk hm hs.core
  exact ⟨memories, ppu, apu, mapper, step_dmaReq hs.noDma h, micro_settled hm hs.latch⟩

end Sys2Proof.Machine

/-! ## The frame of an instruction

Each shape of an instruction keeps what `Kept` names; the lemmas take the frame up to a piece and give it after the piece, so
that an instruction's frame reads like its meaning. -/

namespace Sys2Proof.Machine

/-- An outcome that is a next state, with the frame `Kept`. -/
def KeptNext (s : State) (o : Outcome) : Prop := ∃ t, o = .next t ∧ Kept s t

theorem keptNext {s t : State} (h : Kept s t) : KeptNext s (.next t) := ⟨t, rfl, h⟩

namespace Kept

variable {s t : State}

theorem endCycle (h : Kept s t) : Kept s (endCycle t) := h.trans (kept_endCycle t)

theorem read (h : Kept s t) (a : Word) : Kept s (dummyRead a t) := h.trans (kept_dummyRead a t)

theorem write (h : Kept s t) (a : Word) (v : Byte) : Kept s (memWrite a v t) := h.trans (kept_memWrite a v t)

theorem regs (h : Kept s t) (f : Regs → Regs) : Kept s (updateRegs f t) := h.trans (kept_updateRegs f t)

theorem hidden (h : Kept s t) (f : Hidden → Hidden)
    (hf : (f t.mach.hidden).rstPending = t.mach.hidden.rstPending) : Kept s (updateHidden f t) :=
  h.trans (kept_updateHidden t hf)

theorem setPc (h : Kept s t) (a : Word) : Kept s (setPc a t) := h.regs _

theorem updateFlags (h : Kept s t) (f : Flags → Flags) : Kept s (updateFlags f t) := h.regs _

theorem poll (h : Kept s t) : Kept s (poll t) := h.trans (kept_poll t)

theorem push (h : Kept s t) (v : Byte) : Kept s (push v t) := (h.write _ v).regs _

theorem pull (h : Kept s t) : Kept s (pull t).2 := (h.regs _).read _

theorem fetched (h : Kept s t) (b : Byte) : Kept s (dmcFetched b t) :=
  h.trans ⟨rfl, rfl, rfl, rfl, rfl, rfl⟩

theorem dmaDone (h : Kept s t) : Kept s (clearDmaReq t) := h.trans ⟨rfl, rfl, rfl, rfl, rfl, rfl⟩

/-! ### Sequences -/

theorem pushPc (h : Kept s t) : Kept s (pushPc t) := (h.push _).push _

theorem vectorFetch (h : Kept s t) (v : Word) : Kept s (vectorFetch v t) :=
  have h6 : Kept s (updateHidden (fun h => { h with nmiPending := h.nmiPending && v != nmiVector })
      (Machine.updateFlags (fun f => { f with i := true }) (dummyRead v t))) := ((h.read v).updateFlags _).hidden _ rfl
  ((h6.read (v + 1)).setPc _).hidden (fun h => { h with intDue := false }) rfl

theorem enterHandler (h : Kept s t) (b : Bool) : Kept s (enterHandler b t) := (h.pushPc.push _).vectorFetch _

theorem interruptSequence (h : Kept s t) : Kept s (interruptSequence t) := ((h.read _).read _).enterHandler _

theorem returnFromInterrupt (h : Kept s t) : Kept s (returnFromInterrupt t) :=
  (h.pull.updateFlags _).pull.poll.pull.setPc _

theorem resetStackCycle (h : Kept s t) : Kept s (resetStackCycle t) := (h.read _).regs _

theorem dmcStall (h : Kept s t) : Kept s (dmcStall t) := ((h.endCycle.endCycle.endCycle).read _).fetched _

theorem oamPair (h : Kept s t) (p i : Byte) : Kept s (oamPair p i t) := (h.read _).write _ _

theorem oamCopy (h : Kept s t) (p : Byte) : ∀ n, Kept s (oamCopy p n t)
  | 0 => h
  | n + 1 => (oamCopy h p n).oamPair _ _

theorem dmaAlign (h : Kept s t) : Kept s (dmaAlign t) := by
  unfold Machine.dmaAlign
  split
  · exact h.endCycle
  · exact h

theorem oamDma (h : Kept s t) : Kept s (oamDma t) := (h.endCycle.dmaAlign.oamCopy _ 256).dmaDone

theorem runDma (h : Kept s t) : Kept s (runDma t) := by
  unfold Machine.runDma
  split
  · exact h.oamDma
  · exact h

/-! ### Shapes of instructions -/

theorem classR {addr : AddrFn} (ha : Steady s (addr s).2) (op : Byte → Regs → Regs) : Kept s (classR op addr s) :=
  (ha.kept.poll.read _).regs _

theorem classW {addr : AddrFn} (ha : Steady s (addr s).2) (val : Regs → Byte) : Kept s (classW val addr s) :=
  ha.kept.poll.write _ _

theorem classM {addr : AddrFn} (ha : Steady s (addr s).2) (op : Byte → Regs → Byte × Regs) :
    Kept s (classM op addr s) := by
  unfold Machine.classM
  exact (((ha.kept.read _).write _ _).poll.write _ _).regs _

theorem implied (op : Regs → Regs) : Kept s (implied op s) := ((kept_poll s).read _).regs _

theorem shStore (h : Kept s t) (src : Regs → Byte) (base : Word) (index : Byte) :
    Kept s (shStore src base index t) :=
  (h.trans (steady_fixCycle true base index t).kept).poll.write _ _

theorem branch (cond : Flags → Bool) (oo : Byte) : Kept s (branch cond oo s) := by
  unfold Machine.branch
  dsimp only
  split
  · have h3 (a0 a : Word) : Kept s (Machine.setPc a (dummyRead a0 s)) := (kept_dummyRead a0 s).regs _
    split
    · exact h3 _ _
    · exact ((h3 _ _).poll.read _).regs _
  · exact .refl s

theorem halt : Kept s (halt s) := kept_updateHidden s rfl

end Kept

/-- EVERY INSTRUCTION keeps the frame: each is one of the shapes above. -/
theorem exec_kept (i : Instr) (s : State) : KeptNext s (exec i s) := by
  have h : Kept s s := .refl s
  cases i with
  | oraIzx _ | andIzx _ | eorIzx _ | adcIzx _ | ldaIzx _ | laxIzx _ | cmpIzx _ | sbcIzx _ =>
    exact keptNext (.classR (steady_addrIzx _ s) _)
  | nopZp04 _ | oraZp _ | bitZp _ | andZp _ | nopZp44 _ | eorZp _ | nopZp64 _ | adcZp _ | ldyZp _ | ldaZp _ | ldxZp _
  | laxZp _ | cpyZp _ | cmpZp _ | cpxZp _ | sbcZp _ => exact keptNext (.classR (steady_addrZp _ s) _)
  | nopAbs0C _ | oraAbs _ | bitAbs _ | andAbs _ | eorAbs _ | adcAbs _ | ldyAbs _ | ldaAbs _ | ldxAbs _ | laxAbs _
  | cpyAbs _ | cmpAbs _ | cpxAbs _ | sbcAbs _ => exact keptNext (.classR (steady_addrAbs _ s) _)
  | oraIzy _ | andIzy _ | eorIzy _ | adcIzy _ | ldaIzy _ | laxIzy _ | cmpIzy _ | sbcIzy _ =>
    exact keptNext (.classR (steady_addrIzy _ _ s) _)
  | nopZpx14 _ | oraZpx _ | nopZpx34 _ | andZpx _ | nopZpx54 _ | eorZpx _ | nopZpx74 _ | adcZpx _ | ldyZpx _
  | ldaZpx _ | ldxZpy _ | laxZpy _ | nopZpxD4 _ | cmpZpx _ | nopZpxF4 _ | sbcZpx _ =>
    exact keptNext (.classR (steady_addrZpIndexed _ _ s) _)
  | oraAby _ | nopAbx1C _ | oraAbx _ | andAby _ | nopAbx3C _ | andAbx _ | eorAby _ | nopAbx5C _ | eorAbx _ | adcAby _
  | nopAbx7C _ | adcAbx _ | ldaAby _ | lasAby _ | ldyAbx _ | ldaAbx _ | ldxAby _ | laxAby _ | cmpAby _ | nopAbxDC _
  | cmpAbx _ | sbcAby _ | nopAbxFC _ | sbcAbx _ => exact keptNext (.classR (steady_addrAbsIndexed _ _ _ s) _)
  | staIzx _ | saxIzx _ => exact keptNext (.classW (steady_addrIzx _ s) _)
  | styZp _ | staZp _ | stxZp _ | saxZp _ => exact keptNext (.classW (steady_addrZp _ s) _)
  | styAbs _ | staAbs _ | stxAbs _ | saxAbs _ => exact keptNext (.classW (steady_addrAbs _ s) _)
  | staIzy _ => exact keptNext (.classW (steady_addrIzy _ _ s) _)
  | styZpx _ | staZpx _ | stxZpy _ | saxZpy _ => exact keptNext (.classW (steady_addrZpIndexed _ _ s) _)
  | staAby _ | staAbx _ => exact keptNext (.classW (steady_addrAbsIndexed _ _ _ s) _)
  | sloIzx _ | rlaIzx _ | sreIzx _ | rraIzx _ | dcpIzx _ | iscIzx _ => exact keptNext (.classM (steady_addrIzx _ s) _)
  | aslZp _ | sloZp _ | rolZp _ | rlaZp _ | lsrZp _ | sreZp _ | rorZp _ | rraZp _ | decZp _ | dcpZp _ | incZp _
  | iscZp _ => exact keptNext (.classM (steady_addrZp _ s) _)
  | aslAbs _ | sloAbs _ | rolAbs _ | rlaAbs _ | lsrAbs _ | sreAbs _ | rorAbs _ | rraAbs _ | decAbs _ | dcpAbs _
  | incAbs _ | iscAbs _ => exact keptNext (.classM (steady_addrAbs _ s) _)
  | sloIzy _ | rlaIzy _ | sreIzy _ | rraIzy _ | dcpIzy _ | iscIzy _ => exact keptNext (.classM (steady_addrIzy _ _ s) _)
  | aslZpx _ | sloZpx _ | rolZpx _ | rlaZpx _ | lsrZpx _ | sreZpx _ | rorZpx _ | rraZpx _ | decZpx _ | dcpZpx _
  | incZpx _ | iscZpx _ => exact keptNext (.classM (steady_addrZpIndexed _ _ s) _)
  | sloAby _ | aslAbx _ | sloAbx _ | rlaAby _ | rolAbx _ | rlaAbx _ | sreAby _ | lsrAbx _ | sreAbx _ | rraAby _
  | rorAbx _ | rraAbx _ | dcpAby _ | decAbx _ | dcpAbx _ | iscAby _ | incAbx _ | iscAbx _ =>
    exact keptNext (.classM (steady_addrAbsIndexed _ _ _ s) _)
  | oraImm _ | ancImm0B _ | andImm _ | ancImm2B _ | eorImm _ | alrImm _ | adcImm _ | arrImm _ | nopImm80 _
  | nopImm82 _ | nopImm89 _ | aneImm _ | ldyImm _ | ldxImm _ | ldaImm _ | lxaImm _ | cpyImm _ | nopImmC2 _ | cmpImm _
  | sbxImm _ | cpxImm _ | nopImmE2 _ | sbcImm _ | sbcImmEB _
  | jmpAbs _ => exact keptNext (h.regs _)
  | aslA | clc | nopImp1A | rolA | sec | nopImp3A | lsrA | cli | nopImp5A | rorA | sei | nopImp7A | dey | txa | tya
  | txs | tay | tax | clv | tsx | iny | dex | cld | nopImpDA | inx | nop | sed | nopImpFA => exact keptNext (.implied _)
  | jam02 | jam12 | jam22 | jam32 | jam42 | jam52 | jam62 | jam72 | jam92 | jamB2 | jamD2 | jamF2 =>
    exact keptNext .halt
  | bpl _ | bmi _ | bvc _ | bvs _ | bcc _ | bcs _ | bne _ | beq _ => exact keptNext (.branch _ _)
  | brk _ => exact keptNext (h.enterHandler _)
  | php | pha => exact keptNext ((h.read _).poll.push _)
  | jsrAbs _ => exact keptNext (((h.read _).pushPc.poll.read _).regs _)
  | rti => exact keptNext ((h.read _).read _).returnFromInterrupt
  | rts => exact keptNext (((((h.read _).read _).pull.pull).poll.read _).regs _)
  | plp | pla => exact keptNext (((h.read _).read _).poll.pull.regs _)
  | jmpInd _ => exact keptNext (((h.read _).poll.read _).regs _)
  | shaIzy _ => exact keptNext ((steady_zpPointer _ s).kept.shStore _ _ _)
  | tasAby _ => exact keptNext ((h.shStore _ _ _).regs _)
  | shyAbx _ | shxAby _ | shaAby _ => exact keptNext (h.shStore _ _ _)

/-! ## The frame of a step -/

theorem instructionStep_kept (s : State) : KeptNext s (instructionStep s) := by
  obtain ⟨i, hi⟩ := fetchInstr_decodes s
  obtain ⟨t, ht, hk⟩ := exec_kept i (fetchInstr s).state
  simp only [instructionStep, hi, ht]
  exact keptNext ((fetchInstr_cycles s).kept.trans hk).runDma

/-- The reset sequence keeps the frame up to its last line, which clears the pending reset (60_exceptions.md R608). -/
theorem resetSequence_eq_updateHidden (s : State) : ∃ u, Kept s u ∧ resetSequence s =
    updateHidden (fun h => { h with rstPending := false, jammed := false, intDue := false }) u := by
  refine ⟨_, ?_, rfl⟩
  exact (((((Kept.refl s).read _).read _).resetStackCycle.resetStackCycle.resetStackCycle.read
    resetVector).updateFlags (fun f => { f with i := true })).read (resetVector + 1) |>.setPc _

theorem stepKind_eq_reset {s : State} : stepKind s = .reset ↔ s.mach.hidden.rstPending = true := by
  unfold stepKind
  cases s.mach.hidden.rstPending
  · simp only [Bool.false_eq_true, if_false, iff_false]
    repeat' split
    all_goals simp
  · simp

/-- With no reset pending a step keeps the frame. -/
theorem step_kept {s : State} (h : s.mach.hidden.rstPending = false) : KeptNext s (step s) := by
  have hs := Kept.refl s
  unfold step
  cases hk : stepKind s with
  | reset => simp [stepKind_eq_reset.mp hk] at h
  | dmcStall => exact keptNext hs.dmcStall
  | jammed => exact keptNext hs.endCycle
  | interrupt => exact keptNext hs.interruptSequence
  | instruction => exact instructionStep_kept s

/-- Settles O10: with a reset pending the step is the reset sequence, which clears it (`resetSequence_eq_updateHidden`); any
other step keeps the frame, the absent reset included (`step_kept`). -/
theorem noStepChangesImageOrHost : Obligations.NoStepChangesImageOrHost := by
  unfold Obligations.NoStepChangesImageOrHost
  intro s t ht
  cases hr : s.mach.hidden.rstPending with
  | true =>
    obtain ⟨u, hu, hreset⟩ := resetSequence_eq_updateHidden s
    simp only [step, stepKind_eq_reset.mpr hr, hreset] at ht
    cases ht
    exact ⟨hu.image, hu.host, hu.frameCount, hu.latched0, hu.latched1, rfl⟩
  | false =>
    obtain ⟨u, hu, hk⟩ := step_kept hr
    cases hu.symm.trans ht
    exact ⟨hk.image, hk.host, hk.frameCount, hk.latched0, hk.latched1, hk.rstPending.trans hr⟩

end Sys2Proof.Machine

/-! ## Bus accesses by row of the address map (20_memory.md R110) -/

namespace Sys2Proof.Machine

theorem busRead_workRam {a : Word} (h : a < 0x2000) (s : State) : busRead a s =
    (Cells.read s.mach.ram (a.toNat % 2048),
      { s with mach := { s.mach with openBus := Cells.read s.mach.ram (a.toNat % 2048) } }) := by
  rw [busRead, region_workRam h, readRegion]

theorem busWrite_workRam {a : Word} (h : a < 0x2000) (v : Byte) (s : State) : busWrite a v s =
    { s with mach := { s.mach with openBus := v, ram := Cells.write s.mach.ram (a.toNat % 2048) v } } := by
  rw [busWrite, region_workRam h, writeRegion]

/-- The rows that no read drives are the write-only registers $4000-$4014 and the test registers $4018-$401F. -/
theorem region_undriven {a : Word} (h : (0x4000 ≤ a.toNat ∧ a.toNat ≤ 0x4014) ∨ (0x4018 ≤ a.toNat ∧ a.toNat ≤ 0x401F)) :
    (∃ r, region a = .apuChannel r) ∨ region a = .oamDma ∨ region a = .testRegs := by
  have h1 : ¬ a < 0x2000 := by bv_omega
  have h2 : ¬ a < 0x4000 := by bv_omega
  have h5 : ¬ a = 0x4015 := by bv_omega
  have h6 : ¬ a = 0x4016 := by bv_omega
  have h7 : ¬ a = 0x4017 := by bv_omega
  have h8 : a < 0x4020 := by bv_omega
  simp only [region, h1, h2, h5, h6, h7, h8, if_false, if_true]
  split
  · exact .inl ⟨_, rfl⟩
  · split
    · exact .inr (.inl rfl)
    · exact .inr (.inr rfl)

theorem busRead_undriven {a : Word}
    (h : (0x4000 ≤ a.toNat ∧ a.toNat ≤ 0x4014) ∨ (0x4018 ≤ a.toNat ∧ a.toNat ≤ 0x401F)) (s : State) :
    busRead a s = (s.mach.openBus, s) := by
  obtain ⟨r, hr⟩ | hr | hr := region_undriven h <;> rw [busRead, hr, readRegion]

theorem busRead_cartridge {a : Word} (h : 0x4020 ≤ a) (s : State) :
    let b := (mapperCpuRead s.image s.mach.cart s.mach.mapper a).getD s.mach.openBus
    busRead a s = (b, { s with mach := { s.mach with openBus := b } }) := by
  rw [busRead, region_cartridge.mpr h, readRegion]

/-- Settles O40, row by row of the map. -/
theorem busReadsFollowTheMap : Obligations.BusReadsFollowTheMap := by
  unfold Obligations.BusReadsFollowTheMap
  intro a v s
  refine ⟨fun h => ?_, fun h => busRead_undriven h s, fun h => busRead_cartridge (by bv_omega) s,
    fun h => busRead_openBus h s, busWrite_openBus a v s⟩
  have ha : a < 0x2000 := by bv_omega
  exact ⟨busRead_workRam ha s, busWrite_workRam ha v s⟩

end Sys2Proof.Machine

/-! ## OAM DMA (20_memory.md R115)

With rendering disabled no dot moves OAMADDR, so the 256 writes to $2004 fill OAM from OAMADDR up, once around. -/

namespace Sys2Proof.Machine

/-! ### The PPU while rendering is disabled -/

/-- The registers that the OAM port depends on: the rendering enables and OAMADDR (61_ppu.md R656, R675). -/
structure SameOamPort (p q : Ppu) : Prop where
  mask    : q.mask = p.mask
  oamaddr : q.oamaddr = p.oamaddr

theorem SameOamPort.refl (p : Ppu) : SameOamPort p p := ⟨rfl, rfl⟩

theorem SameOamPort.trans {p q r : Ppu} (h : SameOamPort p q) (g : SameOamPort q r) : SameOamPort p r :=
  ⟨g.mask.trans h.mask, g.oamaddr.trans h.oamaddr⟩

theorem SameOamPort.renderingEnabled {p q : Ppu} (h : SameOamPort p q) :
    q.renderingEnabled = p.renderingEnabled := by
  rw [Ppu.renderingEnabled, h.mask, Ppu.renderingEnabled]

theorem renderingActive_of_disabled {p : Ppu} (h : p.renderingEnabled = false) : p.renderingActive = false := by
  rw [Ppu.renderingActive, h, Bool.false_and]

theorem statusFlags_oamPort (p : Ppu) : SameOamPort p (statusFlags p) := by
  unfold statusFlags
  repeat' split
  all_goals exact ⟨rfl, rfl⟩

theorem drawPixel_oamPort (vmem : VideoMem) (p : Ppu) : SameOamPort p (drawPixel vmem p) := by
  unfold drawPixel
  split <;> exact ⟨rfl, rfl⟩

theorem advance_oamPort (p : Ppu) : SameOamPort p (advance p) := by
  unfold advance
  repeat' split
  all_goals exact ⟨rfl, rfl⟩

theorem renderDot_oamPort (w : PpuWorld) {p : Ppu} (h : p.renderingEnabled = false) (mp : Mapper) :
    SameOamPort p (renderDot w p mp).1 := by
  have ha : ¬ p.renderingActive = true := by simp [renderingActive_of_disabled h]
  rw [renderDot, if_neg ha]
  have hd := drawPixel_oamPort w.vmem { p with sprLatch := none }
  exact ⟨hd.mask, hd.oamaddr⟩

theorem ppuTick_oamPort (w : PpuWorld) {o : DotOut} (h : o.ppu.renderingEnabled = false) :
    SameOamPort o.ppu (ppuTick w o).ppu := by
  have hs := statusFlags_oamPort o.ppu
  exact (hs.trans (renderDot_oamPort w (hs.renderingEnabled.trans h) o.mapper)).trans (advance_oamPort _)

theorem endCycle_oamPort {s : State} (h : s.mach.ppu.renderingEnabled = false) :
    SameOamPort s.mach.ppu (endCycle s).mach.ppu := by
  have tick {o : DotOut} (g : SameOamPort s.mach.ppu o.ppu) : SameOamPort s.mach.ppu (ppuTick s.ppuWorld o).ppu :=
    g.trans (ppuTick_oamPort _ (g.renderingEnabled.trans h))
  exact tick (tick (tick (.refl s.mach.ppu)))

/-! ### Reads of memory and writes of $2004 -/

/-- A read of work RAM or of the cartridge does not reach the PPU. -/
theorem busRead_ppu_of_memByte {a : Word} {b : Byte} {s : State} (h : memByte a s = some b) :
    (busRead a s).2.mach.ppu = s.mach.ppu := by
  unfold memByte at h
  unfold busRead
  cases hr : region a <;> rw [hr] at h
  case workRam => rfl
  case cartridge => rfl
  all_goals cases h

/-- A write of $2004 with rendering disabled stores at OAMADDR and counts it up (61_ppu.md R675). -/
theorem busWrite_oamData {s : State} (h : s.mach.ppu.renderingEnabled = false) (v : Byte) : busWrite 0x2004 v s =
    let p := s.mach.ppu
    { s with mach := { s.mach with
        openBus := v
        ppu := { p with ioLatch := v, oamaddr := p.oamaddr + 1 }
        vmem := { s.mach.vmem with
          oam := Cells.write s.mach.vmem.oam p.oamaddr.toNat (oamByte p.oamaddr v) } } } := by
  have ha : ¬ ({ s.mach.ppu with ioLatch := v } : Ppu).renderingActive = true := by
    simp [renderingActive_of_disabled (p := { s.mach.ppu with ioLatch := v }) h]
  have hr : region 0x2004 = .ppuReg 4 := by decide
  have hw : ppuRegWrite s.ppuWorld 4 v s.mach.ppu s.mach.mapper =
      { ppu := { s.mach.ppu with ioLatch := v, oamaddr := s.mach.ppu.oamaddr + 1 }
        vmem := { s.mach.vmem with
          oam := Cells.write s.mach.vmem.oam s.mach.ppu.oamaddr.toNat (oamByte s.mach.ppu.oamaddr v) }
        cart := s.mach.cart
        mapper := s.mach.mapper } := if_neg ha
  rw [busWrite, hr, writeRegion, hw]

theorem oamByte_eq (i v : Byte) : oamByte i v = if i.toNat % 4 = 2 then v &&& 0xE3 else v := by
  have h : i &&& 3 = 2 ↔ i.toNat % 4 = 2 := by
    rw [← BitVec.toNat_inj, BitVec.toNat_and]
    exact iff_of_eq (congrArg (· = 2) (Nat.and_two_pow_sub_one_eq_mod i.toNat 2))
  simp only [oamByte, h]

/-! ### The copy -/

/-- After `n` of the pairs that write the bytes `b`: they are in OAM from the first OAMADDR up, OAMADDR stands after them,
and beside OAM and the bus only the clocks have moved. -/
structure OamCopied (b : Byte → Byte) (n : Nat) (s t : State) : Prop where
  disabled : t.mach.ppu.renderingEnabled = false
  oamaddr  : t.mach.ppu.oamaddr = s.mach.ppu.oamaddr + BitVec.ofNat 8 n
  oamWf    : Memory.wf t.mach.vmem.oam = true
  oam      : ∀ k < n, let i := BitVec.ofNat 8 k
    Cells.read t.mach.vmem.oam (s.mach.ppu.oamaddr + i).toNat = oamByte (s.mach.ppu.oamaddr + i) (b i)
  palette  : t.mach.vmem.palette = s.mach.vmem.palette
  ciram    : t.mach.vmem.ciram = s.mach.vmem.ciram
  ram      : t.mach.ram = s.mach.ram
  cart     : t.mach.cart = s.mach.cart
  banks    : t.mach.mapper.banks = s.mach.mapper.banks
  regs     : t.mach.regs = s.mach.regs
  intDue   : t.mach.hidden.intDue = s.mach.hidden.intDue
  jammed   : t.mach.hidden.jammed = s.mach.hidden.jammed
  kept     : Kept s t

namespace OamCopied

variable {b : Byte → Byte} {n : Nat} {s t u : State}

theorem start (h : s.mach.ppu.renderingEnabled = false) (m : MemoriesOk s.mach) : OamCopied b 0 s s :=
  ⟨h, (BitVec.add_zero _).symm, m.oam.1, fun _ hk => absurd hk (Nat.not_lt_zero _), rfl, rfl, rfl, rfl, rfl, rfl, rfl, rfl,
    .refl s⟩

/-- Cycles that leave the OAM port and the memories alone may follow. -/
theorem steady (h : OamCopied b n s t) (g : Steady t u) (hp : SameOamPort t.mach.ppu u.mach.ppu) :
    OamCopied b n s u where
  disabled := hp.renderingEnabled.trans h.disabled
  oamaddr := hp.oamaddr.trans h.oamaddr
  oamWf := g.quiet.vmem ▸ h.oamWf
  oam := g.quiet.vmem ▸ h.oam
  palette := (congrArg VideoMem.palette g.quiet.vmem).trans h.palette
  ciram := (congrArg VideoMem.ciram g.quiet.vmem).trans h.ciram
  ram := g.quiet.ram.trans h.ram
  cart := g.quiet.cart.trans h.cart
  banks := g.quiet.banks.trans h.banks
  regs := g.regs.trans h.regs
  intDue := g.intDue.trans h.intDue
  jammed := g.jammed.trans h.jammed
  kept := h.kept.trans g.kept

theorem endCycle (h : OamCopied b n s t) : OamCopied b n s (endCycle t) :=
  h.steady (steady_endCycle t) (endCycle_oamPort h.disabled)

theorem memByte (h : OamCopied b n s t) (a : Word) : memByte a t = memByte a s :=
  memByte_congr a h.ram h.kept.image (congrArg Cart.prgRam h.cart) h.banks

theorem dummyRead (h : OamCopied b n s t) {a : Word} {v : Byte} (hv : Machine.memByte a s = some v) :
    OamCopied b n s (dummyRead a t) := by
  have hp := busRead_ppu_of_memByte ((h.memByte a).trans hv)
  refine h.steady (steady_dummyRead a t) ?_
  have he := endCycle_oamPort (s := (busRead a t).2) ((congrArg Ppu.renderingEnabled hp).trans h.disabled)
  rwa [hp] at he

/-- One more byte: fewer than 256 do not come around to the cells already filled. -/
theorem busWrite (h : OamCopied b n s t) (hn : n < 256) :
    OamCopied b (n + 1) s (busWrite 0x2004 (b (BitVec.ofNat 8 n)) t) := by
  rw [busWrite_oamData h.disabled]
  refine { h with oamaddr := ?_, oamWf := Cells.write_wf h.oamWf _ _, oam := fun k hk => ?_, kept := ?_ }
  · show t.mach.ppu.oamaddr + 1 = _
    rw [h.oamaddr, BitVec.ofNat_add, BitVec.add_assoc]
    rfl
  · dsimp only
    rw [Cells.read_write h.oamWf, h.oamaddr]
    by_cases hkn : k = n
    · rw [hkn, if_pos rfl]
    · rw [if_neg, h.oam k (by omega)]
      have := s.mach.ppu.oamaddr.isLt
      simp only [BitVec.toNat_add, BitVec.toNat_ofNat]
      omega
  · exact h.kept.trans ⟨rfl, rfl, rfl, rfl, rfl, rfl⟩

theorem oamPair (h : OamCopied b n s t) (hn : n < 256) {p : Byte}
    (hb : Machine.memByte (word p (BitVec.ofNat 8 n)) s = some (b (BitVec.ofNat 8 n))) :
    OamCopied b (n + 1) s (oamPair p (BitVec.ofNat 8 n) t) := by
  have hv : peek (word p (BitVec.ofNat 8 n)) t = b (BitVec.ofNat 8 n) := peek_memByte ((h.memByte _).trans hb)
  rw [Machine.oamPair, memRead_fst, memRead_snd, hv]
  exact ((h.dummyRead hb).busWrite hn).endCycle

/-- The induction over the pairs. -/
theorem oamCopy (h : OamCopied b 0 s t) {p : Byte} (hb : ∀ i, Machine.memByte (word p i) s = some (b i)) :
    ∀ n ≤ 256, OamCopied b n s (oamCopy p n t)
  | 0, _ => h
  | n + 1, hn => (oamCopy h hb n (by omega)).oamPair hn (hb _)

theorem dmaAlign (h : OamCopied b n s t) : OamCopied b n s (dmaAlign t) := by
  unfold Machine.dmaAlign
  split
  · exact h.endCycle
  · exact h

theorem dmaDone (h : OamCopied b n s t) : OamCopied b n s (clearDmaReq t) :=
  { h with kept := h.kept.dmaDone }

theorem oamDma (hoff : s.mach.ppu.renderingEnabled = false) (m : MemoriesOk s.mach)
    (hb : ∀ i, Machine.memByte (word s.mach.dmaPage i) s = some (b i)) : OamCopied b 256 s (oamDma s) :=
  ((start hoff m).endCycle.dmaAlign.oamCopy hb 256 le_rfl).dmaDone

theorem read_oam (h : OamCopied b 256 s t) (i : Byte) :
    Cells.read t.mach.vmem.oam (s.mach.ppu.oamaddr + i).toNat = oamByte (s.mach.ppu.oamaddr + i) (b i) := by
  have := h.oam i.toNat i.isLt
  rwa [BitVec.ofNat_toNat, BitVec.setWidth_eq] at this

end OamCopied

/-! ### Its cycles -/

theorem oamCopy_cycles (p : Byte) (n : Nat) (s : State) :
    (oamCopy p n s).mach.hidden.cycles = s.mach.hidden.cycles + 2 * n := by
  induction n with
  | zero => rfl
  | succ n ih =>
    rw [oamCopy, oamPair, memWrite_cycles, memRead_snd, dummyRead_cycles, ih]
    omega

/-- The halt cycle comes first, so the DMA aligns where it starts on an even cycle. -/
theorem oamDma_cycles (s : State) : (oamDma s).mach.hidden.cycles =
    s.mach.hidden.cycles + (if s.mach.hidden.cycles % 2 = 1 then 513 else 514) := by
  rw [oamDma, clearDmaReq_hidden, oamCopy_cycles, dmaAlign, idle, endCycle_cycles]
  split <;> simp only [idle, endCycle_cycles] <;> split <;> omega

/-- Settles O49: the halt and alignment cycles leave the OAM port alone and 256 pairs copy the page (`OamCopied.oamDma`), in the
cycles of `oamDma_cycles`; OAMADDR has come around. -/
theorem oamDmaCopiesThePage : Obligations.OamDmaCopiesThePage := by
  unfold Obligations.OamDmaCopiesThePage
  intro s b m hoff hb t
  have h : OamCopied b 256 s t := .oamDma hoff m hb
  exact ⟨fun i => (h.read_oam i).trans (oamByte_eq _ _), h.oamaddr.trans (BitVec.add_zero _), rfl, oamDma_cycles s, h.ram,
    h.cart, h.palette, h.ciram, h.regs, h.intDue, h.jammed, h.kept⟩

end Sys2Proof.Machine

/-! Encoding and decoding (30_encoding.md R150 to R158). Each instruction is read back from its encoding by the lemma of its
constructor in Laws/PerInstr. For the converse, every entry of the opcode map carries the operand bytes it is given, so that
what is decoded encodes to the bytes read. -/

namespace Sys2Proof.Laws.RoundTrip

/-- The family over all constructors, in opcode order. -/
theorem statement_all : ∀ i : Instr, Statement i
  | .brk _ => brk _ | .oraIzx _ => oraIzx _ | .jam02 => jam02 | .sloIzx _ => sloIzx _ | .nopZp04 _ => nopZp04 _
  | .oraZp _ => oraZp _ | .aslZp _ => aslZp _ | .sloZp _ => sloZp _ | .php => php | .oraImm _ => oraImm _
  | .aslA => aslA | .ancImm0B _ => ancImm0B _ | .nopAbs0C _ => nopAbs0C _ | .oraAbs _ => oraAbs _
  | .aslAbs _ => aslAbs _ | .sloAbs _ => sloAbs _ | .bpl _ => bpl _ | .oraIzy _ => oraIzy _ | .jam12 => jam12
  | .sloIzy _ => sloIzy _ | .nopZpx14 _ => nopZpx14 _ | .oraZpx _ => oraZpx _ | .aslZpx _ => aslZpx _
  | .sloZpx _ => sloZpx _ | .clc => clc | .oraAby _ => oraAby _ | .nopImp1A => nopImp1A | .sloAby _ => sloAby _
  | .nopAbx1C _ => nopAbx1C _ | .oraAbx _ => oraAbx _ | .aslAbx _ => aslAbx _ | .sloAbx _ => sloAbx _
  | .jsrAbs _ => jsrAbs _ | .andIzx _ => andIzx _ | .jam22 => jam22 | .rlaIzx _ => rlaIzx _ | .bitZp _ => bitZp _
  | .andZp _ => andZp _ | .rolZp _ => rolZp _ | .rlaZp _ => rlaZp _ | .plp => plp | .andImm _ => andImm _
  | .rolA => rolA | .ancImm2B _ => ancImm2B _ | .bitAbs _ => bitAbs _ | .andAbs _ => andAbs _ | .rolAbs _ => rolAbs _
  | .rlaAbs _ => rlaAbs _ | .bmi _ => bmi _ | .andIzy _ => andIzy _ | .jam32 => jam32 | .rlaIzy _ => rlaIzy _
  | .nopZpx34 _ => nopZpx34 _ | .andZpx _ => andZpx _ | .rolZpx _ => rolZpx _ | .rlaZpx _ => rlaZpx _ | .sec => sec
  | .andAby _ => andAby _ | .nopImp3A => nopImp3A | .rlaAby _ => rlaAby _ | .nopAbx3C _ => nopAbx3C _
  | .andAbx _ => andAbx _ | .rolAbx _ => rolAbx _ | .rlaAbx _ => rlaAbx _ | .rti => rti | .eorIzx _ => eorIzx _
  | .jam42 => jam42 | .sreIzx _ => sreIzx _ | .nopZp44 _ => nopZp44 _ | .eorZp _ => eorZp _ | .lsrZp _ => lsrZp _
  | .sreZp _ => sreZp _ | .pha => pha | .eorImm _ => eorImm _ | .lsrA => lsrA | .alrImm _ => alrImm _
  | .jmpAbs _ => jmpAbs _ | .eorAbs _ => eorAbs _ | .lsrAbs _ => lsrAbs _ | .sreAbs _ => sreAbs _ | .bvc _ => bvc _
  | .eorIzy _ => eorIzy _ | .jam52 => jam52 | .sreIzy _ => sreIzy _ | .nopZpx54 _ => nopZpx54 _
  | .eorZpx _ => eorZpx _ | .lsrZpx _ => lsrZpx _ | .sreZpx _ => sreZpx _ | .cli => cli | .eorAby _ => eorAby _
  | .nopImp5A => nopImp5A | .sreAby _ => sreAby _ | .nopAbx5C _ => nopAbx5C _ | .eorAbx _ => eorAbx _
  | .lsrAbx _ => lsrAbx _ | .sreAbx _ => sreAbx _ | .rts => rts | .adcIzx _ => adcIzx _ | .jam62 => jam62
  | .rraIzx _ => rraIzx _ | .nopZp64 _ => nopZp64 _ | .adcZp _ => adcZp _ | .rorZp _ => rorZp _ | .rraZp _ => rraZp _
  | .pla => pla | .adcImm _ => adcImm _ | .rorA => rorA | .arrImm _ => arrImm _ | .jmpInd _ => jmpInd _
  | .adcAbs _ => adcAbs _ | .rorAbs _ => rorAbs _ | .rraAbs _ => rraAbs _ | .bvs _ => bvs _ | .adcIzy _ => adcIzy _
  | .jam72 => jam72 | .rraIzy _ => rraIzy _ | .nopZpx74 _ => nopZpx74 _ | .adcZpx _ => adcZpx _
  | .rorZpx _ => rorZpx _ | .rraZpx _ => rraZpx _ | .sei => sei | .adcAby _ => adcAby _ | .nopImp7A => nopImp7A
  | .rraAby _ => rraAby _ | .nopAbx7C _ => nopAbx7C _ | .adcAbx _ => adcAbx _ | .rorAbx _ => rorAbx _
  | .rraAbx _ => rraAbx _ | .nopImm80 _ => nopImm80 _ | .staIzx _ => staIzx _ | .nopImm82 _ => nopImm82 _
  | .saxIzx _ => saxIzx _ | .styZp _ => styZp _ | .staZp _ => staZp _ | .stxZp _ => stxZp _ | .saxZp _ => saxZp _
  | .dey => dey | .nopImm89 _ => nopImm89 _ | .txa => txa | .aneImm _ => aneImm _ | .styAbs _ => styAbs _
  | .staAbs _ => staAbs _ | .stxAbs _ => stxAbs _ | .saxAbs _ => saxAbs _ | .bcc _ => bcc _ | .staIzy _ => staIzy _
  | .jam92 => jam92 | .shaIzy _ => shaIzy _ | .styZpx _ => styZpx _ | .staZpx _ => staZpx _ | .stxZpy _ => stxZpy _
  | .saxZpy _ => saxZpy _ | .tya => tya | .staAby _ => staAby _ | .txs => txs | .tasAby _ => tasAby _
  | .shyAbx _ => shyAbx _ | .staAbx _ => staAbx _ | .shxAby _ => shxAby _ | .shaAby _ => shaAby _
  | .ldyImm _ => ldyImm _ | .ldaIzx _ => ldaIzx _ | .ldxImm _ => ldxImm _ | .laxIzx _ => laxIzx _
  | .ldyZp _ => ldyZp _ | .ldaZp _ => ldaZp _ | .ldxZp _ => ldxZp _ | .laxZp _ => laxZp _ | .tay => tay
  | .ldaImm _ => ldaImm _ | .tax => tax | .lxaImm _ => lxaImm _ | .ldyAbs _ => ldyAbs _ | .ldaAbs _ => ldaAbs _
  | .ldxAbs _ => ldxAbs _ | .laxAbs _ => laxAbs _ | .bcs _ => bcs _ | .ldaIzy _ => ldaIzy _ | .jamB2 => jamB2
  | .laxIzy _ => laxIzy _ | .ldyZpx _ => ldyZpx _ | .ldaZpx _ => ldaZpx _ | .ldxZpy _ => ldxZpy _
  | .laxZpy _ => laxZpy _ | .clv => clv | .ldaAby _ => ldaAby _ | .tsx => tsx | .lasAby _ => lasAby _
  | .ldyAbx _ => ldyAbx _ | .ldaAbx _ => ldaAbx _ | .ldxAby _ => ldxAby _ | .laxAby _ => laxAby _
  | .cpyImm _ => cpyImm _ | .cmpIzx _ => cmpIzx _ | .nopImmC2 _ => nopImmC2 _ | .dcpIzx _ => dcpIzx _
  | .cpyZp _ => cpyZp _ | .cmpZp _ => cmpZp _ | .decZp _ => decZp _ | .dcpZp _ => dcpZp _ | .iny => iny
  | .cmpImm _ => cmpImm _ | .dex => dex | .sbxImm _ => sbxImm _ | .cpyAbs _ => cpyAbs _ | .cmpAbs _ => cmpAbs _
  | .decAbs _ => decAbs _ | .dcpAbs _ => dcpAbs _ | .bne _ => bne _ | .cmpIzy _ => cmpIzy _ | .jamD2 => jamD2
  | .dcpIzy _ => dcpIzy _ | .nopZpxD4 _ => nopZpxD4 _ | .cmpZpx _ => cmpZpx _ | .decZpx _ => decZpx _
  | .dcpZpx _ => dcpZpx _ | .cld => cld | .cmpAby _ => cmpAby _ | .nopImpDA => nopImpDA | .dcpAby _ => dcpAby _
  | .nopAbxDC _ => nopAbxDC _ | .cmpAbx _ => cmpAbx _ | .decAbx _ => decAbx _ | .dcpAbx _ => dcpAbx _
  | .cpxImm _ => cpxImm _ | .sbcIzx _ => sbcIzx _ | .nopImmE2 _ => nopImmE2 _ | .iscIzx _ => iscIzx _
  | .cpxZp _ => cpxZp _ | .sbcZp _ => sbcZp _ | .incZp _ => incZp _ | .iscZp _ => iscZp _ | .inx => inx
  | .sbcImm _ => sbcImm _ | .nop => nop | .sbcImmEB _ => sbcImmEB _ | .cpxAbs _ => cpxAbs _ | .sbcAbs _ => sbcAbs _
  | .incAbs _ => incAbs _ | .iscAbs _ => iscAbs _ | .beq _ => beq _ | .sbcIzy _ => sbcIzy _ | .jamF2 => jamF2
  | .iscIzy _ => iscIzy _ | .nopZpxF4 _ => nopZpxF4 _ | .sbcZpx _ => sbcZpx _ | .incZpx _ => incZpx _
  | .iscZpx _ => iscZpx _ | .sed => sed | .sbcAby _ => sbcAby _ | .nopImpFA => nopImpFA | .iscAby _ => iscAby _
  | .nopAbxFC _ => nopAbxFC _ | .sbcAbx _ => sbcAbx _ | .incAbx _ => incAbx _ | .iscAbx _ => iscAbx _

end Sys2Proof.Laws.RoundTrip

namespace Sys2Proof

/-- Settles O2, constructor by constructor (`Laws.RoundTrip.statement_all`). -/
theorem decodeInvertsEncode : Obligations.DecodeInvertsEncode := by
  unfold Obligations.DecodeInvertsEncode
  exact fun i => (Laws.RoundTrip.statement_all i).2

/-! ## The entries of the opcode map -/

theorem opcodeOf_decodeOp (op l h : Byte) : opcodeOf (decodeOp op l h) = op := by
  have hzero : ∀ op : Byte, opcodeOf (decodeOp op 0 0) = op := by decide
  exact (congrArg Prod.fst (format_decodeOp op l h)).trans (hzero op)

/-- What holds of every element and of the default holds of a lookup. -/
theorem getD_of_forall_mem {α : Type} {P : α → Prop} {xs : List α} {d : α} (hmem : ∀ a ∈ xs, P a) (hd : P d) (n : Nat) :
    P (xs.getD n d) := by
  rcases Nat.lt_or_ge n xs.length with hn | hn
  · rw [List.getD_eq_getElem _ _ hn]
    exact hmem _ (List.getElem_mem hn)
  · rwa [List.getD_eq_default _ _ hn]

/-- What holds of every entry of the opcode map, and of its default, holds of what an opcode selects. -/
theorem decodeOp_of_opcodeMap {P : (Byte → Byte → Instr) → Prop} (hmap : ∀ row ∈ opcodeMap, ∀ f ∈ row, P f)
    (hnop : P fun _ _ => .nop) (op : Byte) : P (decodeOp op) :=
  getD_of_forall_mem (getD_of_forall_mem (P := fun row => ∀ f ∈ row, P f) hmap (List.forall_mem_nil P) _) hnop _

/-- The operands of the entry are the operand bytes it is given, as many as its length counts. -/
def CarriesOperands (f : Byte → Byte → Instr) : Prop :=
  ∀ l h, (f l h).operands = [l, h].take ((f l h).length - 1)

/-- The opcode map read as a table of operands (compare `opcodeMap_formats`). -/
theorem opcodeMap_operands (l h : Byte) : opcodeMap.map (List.map fun f => (f l h).operands) =
    opcodeMap.map (List.map fun f => [l, h].take ((f l h).length - 1)) := by
  simp only [opcodeMap, opcodeRow0, opcodeRow1, opcodeRow2, opcodeRow3, opcodeRow4, opcodeRow5, opcodeRow6, opcodeRow7,
    opcodeRow8, opcodeRow9, opcodeRowA, opcodeRowB, opcodeRowC, opcodeRowD, opcodeRowE, opcodeRowF, List.map,
    Instr.operands, lo_word, hi_word]
  rfl

theorem opcodeMap_carriesOperands : ∀ row ∈ opcodeMap, ∀ f ∈ row, CarriesOperands f :=
  fun row hrow f hf l h => List.map_inj_left.mp (List.map_inj_left.mp (opcodeMap_operands l h) row hrow) f hf

theorem operands_decodeOp (op l h : Byte) : (decodeOp op l h).operands = [l, h].take (opcodeLength op - 1) := by
  rw [← length_decodeOp op l h]
  exact decodeOp_of_opcodeMap (P := CarriesOperands) opcodeMap_carriesOperands (fun _ _ => rfl) op l h

/-! ## The decoder by the bytes at hand -/

theorem opcodeLength_range (op : Byte) : 1 ≤ opcodeLength op ∧ opcodeLength op ≤ 3 := by
  rcases opcodeLength_cases op with h | h | h <;> omega

/-- With as many bytes as the opcode counts the decoder selects by the opcode and takes its operands from the front. -/
theorem decode_of_enough {op : Byte} {bs : List Byte} (hn : opcodeLength op ≤ bs.length + 1) : ∃ l h,
    decode (op :: bs) = .ok (decodeOp op l h, bs.drop (opcodeLength op - 1)) ∧
      (decodeOp op l h).operands = bs.take (opcodeLength op - 1) := by
  simp only [operands_decodeOp]
  rcases opcodeLength_cases op with h | h | h <;> rw [h] at hn ⊢
  · exact ⟨0, 0, decode_one h bs, rfl⟩
  · match bs, hn with
    | l :: rest, _ => exact ⟨l, 0, decode_two h l rest, rfl⟩
  · match bs, hn with
    | l :: u :: rest, _ => exact ⟨l, u, decode_three h l u rest, rfl⟩

/-- With fewer bytes than the opcode counts the decoder refuses them. -/
theorem decode_of_truncated {op : Byte} {bs : List Byte} (hn : bs.length + 1 < opcodeLength op) :
    decode (op :: bs) = .error (.truncated op (opcodeLength op)) := by
  rcases opcodeLength_cases op with h | h | h <;> rw [h] at hn ⊢
  · omega
  · match bs, hn with
    | [], _ => simp only [decode, h]
  · match bs, hn with
    | [], _ => simp only [decode, h]
    | [_], _ => simp only [decode, h]

/-- Settles O4: `decode_of_enough` and `decode_of_truncated`, with the length the opcode selects. -/
theorem opcodeAloneDecidesTheLength : Obligations.OpcodeAloneDecidesTheLength := by
  unfold Obligations.OpcodeAloneDecidesTheLength
  intro op
  obtain ⟨hpos, hle⟩ := opcodeLength_range op
  refine ⟨opcodeLength op, hpos, hle, fun bs => ⟨fun hn => ?_, decode_of_truncated⟩⟩
  obtain ⟨l, h, hdec, -⟩ := decode_of_enough hn
  exact ⟨decodeOp op l h, hdec, length_decodeOp op l h⟩

/-- Settles O3: what was decoded is what the opcode selects from the front of the bytes (`decode_of_enough`), and it encodes to
the opcode and those bytes; too few bytes do not decode (`decode_of_truncated`). -/
theorem encodeInvertsDecode : Obligations.EncodeInvertsDecode := by
  unfold Obligations.EncodeInvertsDecode
  intro bs i rest hdec
  match bs with
  | [] => cases hdec
  | op :: tail =>
    rcases Nat.lt_or_ge (tail.length + 1) (opcodeLength op) with hn | hn
    · rw [decode_of_truncated hn] at hdec
      cases hdec
    · obtain ⟨l, h, hsel, hops⟩ := decode_of_enough hn
      cases hsel.symm.trans hdec
      rw [encode, opcodeOf_decodeOp, hops, List.cons_append, List.take_append_drop]

/-- Settles O1: the decoder run on each word. -/
theorem decodesTheListedWords : Obligations.DecodesTheListedWords := by
  unfold Obligations.DecodesTheListedWords
  and_intros <;> rfl

end Sys2Proof

namespace Sys2Proof.Machine

/-! ## Cycles (60_exceptions.md R605, R608, 62_apu.md R790) -/

/-- No piece of a step turns the cycle count back. -/
theorem Micro.cycles_le {s t : State} (h : Micro s t) : s.mach.hidden.cycles ≤ t.mach.hidden.cycles := by
  induction h with
  | refl => exact le_rfl
  | endCycle _ ih => rw [endCycle_cycles]; omega
  | read _ _ ih => rw [dummyRead_cycles]; omega
  | write _ _ _ ih => rw [memWrite_cycles]; omega
  | regs _ _ ih => exact ih
  | hidden _ _ hc ih => rw [updateHidden_hidden, hc]; exact ih
  | fetched _ _ _ ih => exact ih
  | dmaDone _ ih => exact ih

theorem resetSequence_cycles (s : State) : (resetSequence s).mach.hidden.cycles = s.mach.hidden.cycles + 7 := by
  simp only [resetSequence, resetStackCycle, updateHidden_hidden, setPc_hidden, updateFlags_hidden, updateRegs_hidden,
    memRead_snd, dummyRead_cycles]

theorem dmcStall_cycles (s : State) : (dmcStall s).mach.hidden.cycles = s.mach.hidden.cycles + 4 := by
  simp only [dmcStall, dmcFetched_hidden, memRead_snd, dummyRead_cycles, idle, endCycle_cycles]

theorem interruptSequence_cycles (s : State) :
    (interruptSequence s).mach.hidden.cycles = s.mach.hidden.cycles + 7 := by
  simp only [interruptSequence, enterHandler, vectorFetch, pushPc, push, updateHidden_hidden, setPc_hidden,
    updateFlags_hidden, updateRegs_hidden, memRead_snd, memWrite_cycles, dummyRead_cycles]

theorem fetchedCount_pos (op : Byte) : 0 < fetchedCount op := by
  unfold fetchedCount
  split
  · decide
  · exact (opcodeLength_range op).1

/-- An outcome that is a next state, some cycles later. -/
def GoesOn (s : State) (o : Outcome) : Prop := ∃ t, o = .next t ∧ s.mach.hidden.cycles < t.mach.hidden.cycles

theorem instructionStep_goesOn (s : State) : GoesOn s (instructionStep s) := by
  obtain ⟨i, hi⟩ := fetchInstr_decodes s
  obtain ⟨t, ht, hm⟩ := exec_runs i (fetchInstr s).state
  simp only [instructionStep, hi, ht]
  have hfetch := (fetchInstr_cycles s).cycles
  have hrun := hm.runDma.cycles_le
  have hpos := fetchedCount_pos (fetchByte s).1
  exact ⟨runDma t, rfl, by omega⟩

/-- Settles O7 by the kind of step: each sequence has its count of cycles, and an instruction takes at least that of its opcode
fetch (`instructionStep_goesOn`). -/
theorem everyStepGoesOn : Obligations.EveryStepGoesOn := by
  unfold Obligations.EveryStepGoesOn
  intro s
  change GoesOn s (step s)
  unfold step
  cases stepKind s with
  | reset => exact ⟨_, rfl, by rw [resetSequence_cycles]; omega⟩
  | dmcStall => exact ⟨_, rfl, by rw [dmcStall_cycles]; omega⟩
  | jammed => exact ⟨_, rfl, by rw [idle, endCycle_cycles]; omega⟩
  | interrupt => exact ⟨_, rfl, by rw [interruptSequence_cycles]; omega⟩
  | instruction => exact instructionStep_goesOn s

end Sys2Proof.Machine

/-! The addressing modes in numbers (40_addressing.md R204 to R210). An address is the number it stands for, a sum wraps in page
zero or modulo 2^16, and a pointer byte comes from work RAM, which no read changes. -/

namespace Sys2Proof

theorem toNat_lo (w : Word) : (lo w).toNat = w.toNat % 256 := BitVec.toNat_setWidth 8 w

theorem toNat_hi (w : Word) : (hi w).toNat = w.toNat / 256 := by
  have := w.isLt
  rw [hi, BitVec.toNat_setWidth, BitVec.toNat_ushiftRight, Nat.shiftRight_eq_div_pow]
  omega

theorem toNat_word (h l : Byte) : (word h l).toNat = l.toNat + 256 * h.toNat := by
  rw [word, BitVec.toNat_append, ← Nat.shiftLeft_add_eq_or_of_lt l.isLt, Nat.shiftLeft_eq]
  omega

theorem word_eq_ofNat (h l : Byte) : word h l = BitVec.ofNat 16 (l.toNat + 256 * h.toNat) := by
  rw [← toNat_word, BitVec.ofNat_toNat, BitVec.setWidth_eq]

/-- Two bytes make a number that a word holds. -/
theorem toNat_ofNat_bytes (l h : Byte) :
    (BitVec.ofNat 16 (l.toNat + 256 * h.toNat)).toNat = l.toNat + 256 * h.toNat := by
  rw [← word_eq_ofNat, toNat_word]

end Sys2Proof

namespace Sys2Proof.Machine

/-! ### Page zero -/

theorem zpAddr_eq_ofNat (p : Byte) : zpAddr p = BitVec.ofNat 16 p.toNat := word_eq_ofNat 0 p

theorem toNat_zpAddr (p : Byte) : (zpAddr p).toNat = p.toNat := toNat_word 0 p

/-- A read of page zero delivers the work RAM cell of that number (20_memory.md R110). -/
theorem peek_zpAddr (p : Byte) (s : State) : peek (zpAddr p) s = Cells.read s.mach.ram p.toNat := by
  have hp := p.isLt
  have ha := toNat_zpAddr p
  rw [peek_workRam (by bv_omega), ha, Nat.mod_eq_of_lt (by omega)]

@[simp] theorem dummyRead_ram (a : Word) (s : State) : (dummyRead a s).mach.ram = s.mach.ram := busRead_ram a s

/-- The address and the cycles of a pointer in page zero at a sum `n` that wraps there (40_addressing.md R209, R210). -/
theorem zpPointer_eq {p : Byte} {n : Nat} (hp : p.toNat = n % 256) (s : State) : zpPointer p s =
    (BitVec.ofNat 16 ((Cells.read s.mach.ram (n % 256)).toNat + 256 * (Cells.read s.mach.ram ((n + 1) % 256)).toNat),
      dummyRead (BitVec.ofNat 16 ((n + 1) % 256)) (dummyRead (BitVec.ofNat 16 (n % 256)) s)) := by
  have hq : (p + 1).toNat = (n + 1) % 256 := by bv_omega
  simp only [zpPointer, memRead_fst, memRead_snd, peek_zpAddr, dummyRead_ram]
  rw [word_eq_ofNat, zpAddr_eq_ofNat, zpAddr_eq_ofNat, hp, hq]

/-! ### Indexing across pages -/

theorem indexed_eq_ofNat (base : Word) (index : Byte) :
    indexed base index = BitVec.ofNat 16 (base.toNat + index.toNat) := by
  rw [indexed, BitVec.ofNat_add, BitVec.ofNat_toNat, BitVec.ofNat_toNat, BitVec.setWidth_eq]

theorem unfixed_eq_ofNat (base : Word) (index : Byte) : unfixed base index =
    BitVec.ofNat 16 (base.toNat / 256 * 256 + (base.toNat + index.toNat) % 256) := by
  rw [unfixed, word_eq_ofNat, BitVec.toNat_add, toNat_lo, toNat_hi, Nat.mod_add_mod, Nat.mul_comm, Nat.add_comm]

theorem pageCross_iff (base : Word) (index : Byte) :
    pageCross base index = true ↔ 256 ≤ base.toNat % 256 + index.toNat := by
  rw [pageCross, decide_eq_true_iff, toNat_lo]

/-- The read before the page is fixed: always, or on a page crossing, at the sum that stays in the page of the base
(40_addressing.md R207, R208, R210). -/
theorem fixCycle_eq (always : Bool) (base : Word) (index : Byte) (s : State) : fixCycle always base index s =
    if always = true ∨ 256 ≤ base.toNat % 256 + index.toNat then
      dummyRead (BitVec.ofNat 16 (base.toNat / 256 * 256 + (base.toNat + index.toNat) % 256)) s
    else s := by
  simp only [fixCycle, Bool.or_eq_true, pageCross_iff, unfixed_eq_ofNat]

/-- Settles O12, mode by mode: page zero by `zpAddr_eq_ofNat` and `zpPointer_eq`, the page fix by `fixCycle_eq`. -/
theorem addressingModesComputeTheirAddresses : Obligations.AddressingModesComputeTheirAddresses := by
  unfold Obligations.AddressingModesComputeTheirAddresses
  intro s nn addr index always
  have hnn : nn.toNat = nn.toNat % 256 := (Nat.mod_eq_of_lt nn.isLt).symm
  have hzp : zpAddr nn = BitVec.ofNat 16 (nn.toNat % 256) := by rw [zpAddr_eq_ofNat, ← hnn]
  refine ⟨?zp, ?zpIndexed, rfl, ?absIndexed, ?izx, ?izy⟩
  case zp => rw [addrZp, hzp]
  case zpIndexed => rw [addrZpIndexed, hzp, zpAddr_eq_ofNat, BitVec.toNat_add]
  case absIndexed => rw [addrAbsIndexed, indexed_eq_ofNat, fixCycle_eq]
  case izx => rw [addrIzx, zpPointer_eq (BitVec.toNat_add nn s.mach.regs.x), dummyRead_ram, hzp]
  case izy => simp only [addrIzy, zpPointer_eq hnn, indexed_eq_ofNat, fixCycle_eq, toNat_ofNat_bytes]

end Sys2Proof.Machine

/-! Loads, stores, transfers and counts (41_load_store_transfer.md, 42_arithmetic_logic.md R314 to R317). Each instruction is an
access class or the implied mode over a register operation, so its statement is the class's lemma (`ReadCompletes.intro`,
`WriteCompletes.intro`, `ImpliedCompletes.intro`) at the row's addressing mode. What is left is that the model's register
operations give the numbers of `Spec`. -/

namespace Sys2Proof.Machine

/-! ### N and Z, and the register loads (00_scope.md R17) -/

/-- Bit 7 of a byte is set from 128 up. -/
theorem getLsbD_seven (v : Byte) : v.getLsbD 7 = decide (128 ≤ v.toNat) := BitVec.msb_eq_decide v

theorem setNZ_eq_nz : Flags.setNZ = Spec.nz := by
  funext v f
  have hz : (v == 0) = decide (v.toNat = 0) := by
    rw [beq_eq_decide]
    exact decide_eq_decide.mpr BitVec.toNat_inj.symm
  rw [Flags.setNZ, Spec.nz, getLsbD_seven, hz]

theorem loadA_eq_lda : Regs.loadA = Spec.lda := by
  funext v r
  rw [Regs.loadA, Spec.lda, setNZ_eq_nz]

theorem loadX_eq_ldx : Regs.loadX = Spec.ldx := by
  funext v r
  rw [Regs.loadX, Spec.ldx, setNZ_eq_nz]

theorem loadY_eq_ldy : Regs.loadY = Spec.ldy := by
  funext v r
  rw [Regs.loadY, Spec.ldy, setNZ_eq_nz]

/-! ### Bytes from integers modulo 256 (00_scope.md R11) -/

theorem ofInt_toNat_byte (x : Byte) : BitVec.ofInt 8 x.toNat = x := by
  rw [BitVec.ofInt_natCast, BitVec.ofNat_toNat, BitVec.setWidth_eq]

theorem byte_toNat_add (x y : Byte) : Spec.byte (x.toNat + y.toNat) = x + y := by
  rw [Spec.byte, BitVec.ofInt_add, ofInt_toNat_byte, ofInt_toNat_byte]

theorem byte_toNat_sub (x y : Byte) : Spec.byte (x.toNat - y.toNat) = x - y := by
  rw [Spec.byte, Int.sub_eq_add_neg, BitVec.ofInt_add, BitVec.ofInt_neg, ofInt_toNat_byte, ofInt_toNat_byte,
    BitVec.sub_eq_add_neg]

theorem byte_succ (x : Byte) : Spec.byte (x.toNat + 1) = x + 1 := byte_toNat_add x 1

theorem byte_pred (x : Byte) : Spec.byte (x.toNat - 1) = x - 1 := byte_toNat_sub x 1

/-! ### The instructions -/

/-- Settles O13: each row is `ReadCompletes.intro` at its addressing mode, which leaves all alone but for its cycles; the
immediate rows are the load itself. -/
theorem loadsLoadTheByteRead : Obligations.LoadsLoadTheByteRead := by
  unfold Obligations.LoadsLoadTheByteRead
  intro nn addr
  rw [← loadA_eq_lda, ← loadX_eq_ldx, ← loadY_eq_ldy]
  refine ⟨?ldaImm, ?ldaZp, ?ldaZpx, ?ldaAbs, ?ldaAbx, ?ldaAby, ?ldaIzx, ?ldaIzy, ?ldxImm, ?ldxZp, ?ldxZpy, ?ldxAbs,
    ?ldxAby, ?ldyImm, ?ldyZp, ?ldyZpx, ?ldyAbs, ?ldyAbx⟩
  case ldaImm | ldxImm | ldyImm => exact fun _ => rfl
  case ldaZp | ldxZp | ldyZp => exact .intro (fun _ => rfl) (steady_addrZp nn)
  case ldaZpx | ldxZpy | ldyZpx => exact .intro (fun _ => rfl) (steady_addrZpIndexed _ nn)
  case ldaAbs | ldxAbs | ldyAbs => exact .intro (fun _ => rfl) (steady_addrAbs addr)
  case ldaAbx | ldaAby | ldxAby | ldyAbx => exact .intro (fun _ => rfl) (steady_addrAbsIndexed false _ addr)
  case ldaIzx => exact .intro (fun _ => rfl) (steady_addrIzx nn)
  case ldaIzy => exact .intro (fun _ => rfl) (steady_addrIzy false nn)

/-- Settles O14: each row is `WriteCompletes.intro` at its addressing mode, with the indexed modes in their form that always
takes the cycle before the page is fixed. -/
theorem storesStoreTheRegister : Obligations.StoresStoreTheRegister := by
  unfold Obligations.StoresStoreTheRegister
  intro nn addr
  refine ⟨?staZp, ?staZpx, ?staAbs, ?staAbx, ?staAby, ?staIzx, ?staIzy, ?stxZp, ?stxZpy, ?stxAbs, ?styZp, ?styZpx,
    ?styAbs⟩
  case staZp | stxZp | styZp => exact .intro (fun _ => rfl) (steady_addrZp nn)
  case staZpx | stxZpy | styZpx => exact .intro (fun _ => rfl) (steady_addrZpIndexed _ nn)
  case staAbs | stxAbs | styAbs => exact .intro (fun _ => rfl) (steady_addrAbs addr)
  case staAbx | staAby => exact .intro (fun _ => rfl) (steady_addrAbsIndexed true _ addr)
  case staIzx => exact .intro (fun _ => rfl) (steady_addrIzx nn)
  case staIzy => exact .intro (fun _ => rfl) (steady_addrIzy true nn)

/-- Settles O15: each is the implied mode over a register load, TXS over a plain copy, and a count by one modulo 256 is that of the byte
(`byte_succ`, `byte_pred`). -/
theorem transfersAndCountsComplete : Obligations.TransfersAndCountsComplete := by
  unfold Obligations.TransfersAndCountsComplete
  rw [← loadA_eq_lda, ← loadX_eq_ldx, ← loadY_eq_ldy]
  refine ⟨?tax, ?tay, ?txa, ?tya, ?tsx, ?txs, ?inx, ?iny, ?dex, ?dey⟩
  case tax | tay | txa | tya | tsx | txs => exact .intro fun _ => rfl
  case inx | iny =>
    simp only [byte_succ]
    exact .intro fun _ => rfl
  case dex | dey =>
    simp only [byte_pred]
    exact .intro fun _ => rfl

end Sys2Proof.Machine

/-! Arithmetic, logic, compares, increments and decrements (42_arithmetic_logic.md). As with the loads, each statement is an
access class's lemma at the row's addressing mode; what is left is that the model's `AddC`, `Compare`, BIT, INC and DEC give the
numbers of `Spec`. `AddC` is read twice: as a sum of unsigned numbers, for the result and C, and as a sum of signed ones, for V. -/

namespace Sys2Proof.Machine

/-! ### The sum, its carry and its signed overflow (42_arithmetic_logic.md R301) -/

/-- A byte taken from an integer is that integer modulo 256. -/
theorem toNat_byte (n : Int) : ((Spec.byte n).toNat : Int) = n % 256 := by
  rw [Spec.byte, BitVec.toNat_ofInt]
  omega

theorem addResult_eq_byte (a b : Byte) (c : Bool) : addResult a b c = Spec.byte (a.toNat + b.toNat + Spec.num c) := by
  rw [Spec.byte, BitVec.ofInt_add, BitVec.ofInt_add, ofInt_toNat_byte, ofInt_toNat_byte]
  cases c <;> rfl

theorem addResult_eq_byte_toInt (a b : Byte) (c : Bool) :
    addResult a b c = Spec.byte (a.toInt + b.toInt + Spec.num c) := by
  rw [Spec.byte, BitVec.ofInt_add, BitVec.ofInt_add, BitVec.ofInt_toInt, BitVec.ofInt_toInt]
  cases c <;> rfl

theorem natCast_toNat_eq_num (c : Bool) : (c.toNat : Int) = Spec.num c := by cases c <;> rfl

theorem addCarry_eq (a b : Byte) (c : Bool) :
    addCarry a b c = decide (256 ≤ (a.toNat + b.toNat + Spec.num c : Int)) := by
  rw [addCarry, ← natCast_toNat_eq_num]
  exact decide_eq_decide.mpr (by omega)

/-- Bit 7 of a byte is its sign. -/
theorem getLsbD_seven_eq_neg (v : Byte) : v.getLsbD 7 = decide (v.toInt < 0) := BitVec.msb_eq_toInt (x := v)

/-- The bit formula of V says: operands of one sign, and a result of the other. -/
theorem addOverflow_iff_signs (a b : Byte) (c : Bool) : addOverflow a b c = true ↔
    (a.toInt < 0 ↔ b.toInt < 0) ∧ ¬ (a.toInt < 0 ↔ (addResult a b c).toInt < 0) := by
  rw [addOverflow, BitVec.getLsbD_and, BitVec.getLsbD_not, BitVec.getLsbD_xor, BitVec.getLsbD_xor, getLsbD_seven_eq_neg,
    getLsbD_seven_eq_neg, getLsbD_seven_eq_neg]
  simp

/-- The signed result is the signed sum, moved by 256 where it leaves the range of a byte. -/
theorem toInt_addResult (a b : Byte) (c : Bool) :
    (addResult a b c).toInt = (a.toInt + b.toInt + Spec.num c).bmod 256 := by
  rw [addResult_eq_byte_toInt, Spec.byte, BitVec.toInt_ofInt]

theorem addOverflow_eq (a b : Byte) (c : Bool) : addOverflow a b c =
    decide (a.toInt + b.toInt + Spec.num c < -128 ∨ 127 < a.toInt + b.toInt + Spec.num c) := by
  have ha : -128 ≤ a.toInt ∧ a.toInt < 128 := ⟨BitVec.le_toInt a, BitVec.toInt_lt⟩
  have hb : -128 ≤ b.toInt ∧ b.toInt < 128 := ⟨BitVec.le_toInt b, BitVec.toInt_lt⟩
  have hc : 0 ≤ Spec.num c ∧ Spec.num c ≤ 1 := by cases c <;> decide
  rw [Bool.eq_iff_iff, addOverflow_iff_signs, toInt_addResult, Int.bmod_def, decide_eq_true_iff]
  omega

theorem addC_eq_adc : Regs.addC = Spec.adc := by
  funext v r
  rw [Regs.addC, Spec.adc, setNZ_eq_nz, addResult_eq_byte, addCarry_eq, addOverflow_eq]

/-! ### Subtraction: the sum with the complement -/

theorem toNat_complement (b : Byte) : ((~~~b).toNat : Int) = 255 - b.toNat := by
  rw [BitVec.toNat_not]
  omega

theorem toInt_complement (b : Byte) : (~~~b).toInt = -1 - b.toInt := by
  rw [BitVec.toInt_not, BitVec.toInt_eq_toNat_bmod, Int.bmod_def, Int.bmod_def]
  omega

theorem byte_add_256 (n : Int) : Spec.byte (n + 256) = Spec.byte n := by
  rw [Spec.byte, BitVec.ofInt_add]
  exact BitVec.add_zero _

/-- The sum with the complement is 256 more than the difference, and as a signed sum it is the signed difference. -/
theorem subC_eq_sbc : Regs.subC = Spec.sbc := by
  funext v r
  have hsum : ((r.a.toNat + (~~~v).toNat + Spec.num r.p.c : Int)) = r.a.toNat - v.toNat - (1 - Spec.num r.p.c) + 256 := by
    rw [toNat_complement]
    omega
  have hsigned : r.a.toInt + (~~~v).toInt + Spec.num r.p.c = r.a.toInt - v.toInt - (1 - Spec.num r.p.c) := by
    rw [toInt_complement]
    omega
  have hcarry (n : Int) : decide (256 ≤ n + 256) = decide (0 ≤ n) := decide_eq_decide.mpr (by omega)
  rw [Regs.subC, addC_eq_adc, Spec.adc, Spec.sbc, hsum, hsigned, byte_add_256, hcarry]

/-- Settles O16: `AddC` is the sum of `Spec.adc`, and with the complement the difference of `Spec.sbc`. -/
theorem addWithCarryIsExact : Obligations.AddWithCarryIsExact := by
  unfold Obligations.AddWithCarryIsExact
  intro b r c q d
  have hq : q = Spec.adc b r := congrFun (congrFun addC_eq_adc b) r
  have hd : d = Spec.sbc b r := congrFun (congrFun subC_eq_sbc b) r
  rw [hq, hd]
  exact ⟨rfl, toNat_byte _, decide_eq_true_iff, decide_eq_true_iff, decide_eq_true_iff, decide_eq_true_iff,
    decide_eq_true_iff.trans (by omega), decide_eq_true_iff⟩

/-! ### BIT and the compares (42_arithmetic_logic.md R302, R308 to R311) -/

theorem getLsbD_eq_bit (v : Byte) (i : Nat) : v.getLsbD i = Spec.bit v i := by
  rw [← BitVec.testBit_toNat, Nat.testBit_eq_decide_div_mod_eq, Spec.bit]

theorem bit_eq_bitTest : Regs.bit = Spec.bitTest := by
  funext v r
  have hz : (r.a &&& v == 0) = decide ((r.a &&& v).toNat = 0) := congrArg Flags.z (congrFun (congrFun setNZ_eq_nz _) r.p)
  rw [Regs.bit, Spec.bitTest, hz, getLsbD_eq_bit, getLsbD_eq_bit]

theorem compare_eq_compare : Flags.compare = Spec.compare := by
  funext x m f
  rw [Flags.compare, Spec.compare, setNZ_eq_nz, byte_toNat_sub]
  rfl

theorem cmp_eq_cmp : Regs.cmp = Spec.cmp := by
  funext v r
  rw [Regs.cmp, Spec.cmp, compare_eq_compare]

theorem cpx_eq_cpx : Regs.cpx = Spec.cpx := by
  funext v r
  rw [Regs.cpx, Spec.cpx, compare_eq_compare]

theorem cpy_eq_cpy : Regs.cpy = Spec.cpy := by
  funext v r
  rw [Regs.cpy, Spec.cpy, compare_eq_compare]

/-! ### The instructions -/

/-- Settles O17: each row is `ReadCompletes.intro` at its addressing mode over `AddC` of the byte or of its complement. -/
theorem addAndSubtractComplete : Obligations.AddAndSubtractComplete := by
  unfold Obligations.AddAndSubtractComplete
  intro nn addr
  rw [← addC_eq_adc, ← subC_eq_sbc]
  refine ⟨?adcImm, ?adcZp, ?adcZpx, ?adcAbs, ?adcAbx, ?adcAby, ?adcIzx, ?adcIzy, ?sbcImm, ?sbcImmEB, ?sbcZp, ?sbcZpx,
    ?sbcAbs, ?sbcAbx, ?sbcAby, ?sbcIzx, ?sbcIzy⟩
  case adcImm | sbcImm | sbcImmEB => exact fun _ => rfl
  case adcZp | sbcZp => exact .intro (fun _ => rfl) (steady_addrZp nn)
  case adcZpx | sbcZpx => exact .intro (fun _ => rfl) (steady_addrZpIndexed _ nn)
  case adcAbs | sbcAbs => exact .intro (fun _ => rfl) (steady_addrAbs addr)
  case adcAbx | adcAby | sbcAbx | sbcAby => exact .intro (fun _ => rfl) (steady_addrAbsIndexed false _ addr)
  case adcIzx | sbcIzx => exact .intro (fun _ => rfl) (steady_addrIzx nn)
  case adcIzy | sbcIzy => exact .intro (fun _ => rfl) (steady_addrIzy false nn)

/-- Settles O18: AND, ORA and EOR load A with the bitwise result (`loadA_eq_lda`), and BIT tests it (`bit_eq_bitTest`); each row is
`ReadCompletes.intro` at its addressing mode. -/
theorem logicCompletes : Obligations.LogicCompletes := by
  unfold Obligations.LogicCompletes
  intro nn addr
  rw [← loadA_eq_lda, ← bit_eq_bitTest]
  refine ⟨?andImm, ?andZp, ?andZpx, ?andAbs, ?andAbx, ?andAby, ?andIzx, ?andIzy, ?oraImm, ?oraZp, ?oraZpx, ?oraAbs, ?oraAbx,
    ?oraAby, ?oraIzx, ?oraIzy, ?eorImm, ?eorZp, ?eorZpx, ?eorAbs, ?eorAbx, ?eorAby, ?eorIzx, ?eorIzy, ?bitZp, ?bitAbs⟩
  case andImm | oraImm | eorImm => exact fun _ => rfl
  case andZp | oraZp | eorZp | bitZp => exact .intro (fun _ => rfl) (steady_addrZp nn)
  case andZpx | oraZpx | eorZpx => exact .intro (fun _ => rfl) (steady_addrZpIndexed _ nn)
  case andAbs | oraAbs | eorAbs | bitAbs => exact .intro (fun _ => rfl) (steady_addrAbs addr)
  case andAbx | andAby | oraAbx | oraAby | eorAbx | eorAby =>
    exact .intro (fun _ => rfl) (steady_addrAbsIndexed false _ addr)
  case andIzx | oraIzx | eorIzx => exact .intro (fun _ => rfl) (steady_addrIzx nn)
  case andIzy | oraIzy | eorIzy => exact .intro (fun _ => rfl) (steady_addrIzy false nn)

/-- Settles O19: each row is `ReadCompletes.intro` at its addressing mode over `Compare` (`compare_eq_compare`). -/
theorem comparesComplete : Obligations.ComparesComplete := by
  unfold Obligations.ComparesComplete
  intro nn addr
  rw [← cmp_eq_cmp, ← cpx_eq_cpx, ← cpy_eq_cpy]
  refine ⟨?cmpImm, ?cmpZp, ?cmpZpx, ?cmpAbs, ?cmpAbx, ?cmpAby, ?cmpIzx, ?cmpIzy, ?cpxImm, ?cpxZp, ?cpxAbs, ?cpyImm, ?cpyZp,
    ?cpyAbs⟩
  case cmpImm | cpxImm | cpyImm => exact fun _ => rfl
  case cmpZp | cpxZp | cpyZp => exact .intro (fun _ => rfl) (steady_addrZp nn)
  case cmpZpx => exact .intro (fun _ => rfl) (steady_addrZpIndexed _ nn)
  case cmpAbs | cpxAbs | cpyAbs => exact .intro (fun _ => rfl) (steady_addrAbs addr)
  case cmpAbx | cmpAby => exact .intro (fun _ => rfl) (steady_addrAbsIndexed false _ addr)
  case cmpIzx => exact .intro (fun _ => rfl) (steady_addrIzx nn)
  case cmpIzy => exact .intro (fun _ => rfl) (steady_addrIzy false nn)

/-- Settles O20: each row is `ModifyCompletes.intro` at its addressing mode, the indexed one in its form that always takes the
cycle before the page is fixed; plus or minus one modulo 256 is that of the byte (`byte_succ`, `byte_pred`). -/
theorem incrementAndDecrementComplete : Obligations.IncrementAndDecrementComplete := by
  unfold Obligations.IncrementAndDecrementComplete
  intro nn addr
  simp only [byte_succ, byte_pred, ← setNZ_eq_nz]
  refine ⟨?incZp, ?incZpx, ?incAbs, ?incAbx, ?decZp, ?decZpx, ?decAbs, ?decAbx⟩
  case incZp => exact .intro (op := incMem) (fun _ => rfl) (steady_addrZp nn)
  case incZpx => exact .intro (op := incMem) (fun _ => rfl) (steady_addrZpIndexed _ nn)
  case incAbs => exact .intro (op := incMem) (fun _ => rfl) (steady_addrAbs addr)
  case incAbx => exact .intro (op := incMem) (fun _ => rfl) (steady_addrAbsIndexed true _ addr)
  case decZp => exact .intro (op := decMem) (fun _ => rfl) (steady_addrZp nn)
  case decZpx => exact .intro (op := decMem) (fun _ => rfl) (steady_addrZpIndexed _ nn)
  case decAbs => exact .intro (op := decMem) (fun _ => rfl) (steady_addrAbs addr)
  case decAbx => exact .intro (op := decMem) (fun _ => rfl) (steady_addrAbsIndexed true _ addr)

end Sys2Proof.Machine

/-! Shifts and rotates (43_shift_rotate.md). A shift by one bit is a doubling or a halving, and a rotate adds the old carry in the
bit that the shift has left clear; the statements are then the access class's lemma at the row's addressing mode, as above. -/

namespace Sys2Proof.Machine

/-! ### The shifted byte and the bit shifted out (43_shift_rotate.md R350 to R353) -/

theorem byte_add (m n : Int) : Spec.byte (m + n) = Spec.byte m + Spec.byte n := BitVec.ofInt_add m n

theorem shiftLeft_one_eq_byte (x : Byte) : x <<< 1 = Spec.byte (2 * x.toNat) := by
  rw [Int.two_mul, byte_toNat_add, BitVec.shiftLeft_eq_mul_twoPow, ← BitVec.mul_two]
  rfl

theorem shiftRight_one_eq_byte (x : Byte) : x >>> 1 = Spec.byte (x.toNat / 2 : Nat) := by
  rw [Spec.byte, BitVec.ofInt_natCast]
  bv_omega

theorem carry_eq_byte (c : Bool) : (bitOf c).setWidth 8 = Spec.byte (Spec.num c) := by cases c <;> rfl

theorem carry_seven_eq_byte (c : Bool) : (bitOf c).setWidth 8 <<< 7 = Spec.byte (128 * Spec.num c) := by cases c <;> rfl

/-- A left shift leaves bit 0 clear for the carry. -/
theorem shiftLeft_one_and_carry (x : Byte) (c : Bool) : x <<< 1 &&& (bitOf c).setWidth 8 = 0 := by
  ext i hi
  cases i <;> simp [bitOf]

/-- A right shift leaves bit 7 clear for the carry. -/
theorem shiftRight_one_and_carry (x : Byte) (c : Bool) : x >>> 1 &&& (bitOf c).setWidth 8 <<< 7 = 0 := by
  ext i hi
  rcases lt_or_ge i 7 with h | h
  · simp [bitOf, h]
  · simp [bitOf, BitVec.getLsbD_of_ge x (1 + i) (by omega)]

theorem rotateLeft_eq_byte (x : Byte) (c : Bool) :
    x <<< 1 ||| (bitOf c).setWidth 8 = Spec.byte (2 * x.toNat + Spec.num c) := by
  rw [byte_add, ← shiftLeft_one_eq_byte, ← carry_eq_byte,
    BitVec.add_eq_or_of_and_eq_zero _ _ (shiftLeft_one_and_carry x c)]

theorem rotateRight_eq_byte (x : Byte) (c : Bool) :
    x >>> 1 ||| (bitOf c).setWidth 8 <<< 7 = Spec.byte ((x.toNat / 2 : Nat) + 128 * Spec.num c) := by
  rw [byte_add, ← shiftRight_one_eq_byte, ← carry_seven_eq_byte,
    BitVec.add_eq_or_of_and_eq_zero _ _ (shiftRight_one_and_carry x c)]

theorem aslOp_eq_asl : aslOp = Spec.asl := by
  funext x c
  rw [aslOp, Spec.asl, shiftLeft_one_eq_byte, getLsbD_eq_bit]

theorem lsrOp_eq_lsr : lsrOp = Spec.lsr := by
  funext x c
  rw [lsrOp, Spec.lsr, shiftRight_one_eq_byte, getLsbD_eq_bit]

theorem rolOp_eq_rol : rolOp = Spec.rol := by
  funext x c
  rw [rolOp, Spec.rol, rotateLeft_eq_byte, getLsbD_eq_bit]

theorem rorOp_eq_ror : rorOp = Spec.ror := by
  funext x c
  rw [rorOp, Spec.ror, rotateRight_eq_byte, getLsbD_eq_bit]

theorem shiftFlags_eq_shifted : Regs.shiftFlags = Spec.shifted := by
  funext out r
  rw [Regs.shiftFlags, Spec.shifted, setNZ_eq_nz]

/-! ### The instructions -/

/-- A shift of memory completes with the shift's result stored and the flags of the shift. -/
theorem ModifyCompletes.shift {i : Instr} {op : Byte → Bool → Byte × Bool} {addr : AddrFn}
    (h : ∀ s, exec i s = .next (classM (shiftMem op) addr s)) (ha : ∀ s, Steady s (addr s).2) :
    ModifyCompletes i addr (fun old r => (op old r.p.c).1) (fun old r => Spec.shifted (op old r.p.c) r) := by
  rw [← shiftFlags_eq_shifted]
  exact .intro h ha

/-- Settles O21: each row is `ModifyCompletes.shift` at its addressing mode, the indexed one in its form that always takes the
cycle before the page is fixed. -/
theorem memoryShiftsComplete : Obligations.MemoryShiftsComplete := by
  unfold Obligations.MemoryShiftsComplete
  intro nn addr
  rw [← aslOp_eq_asl, ← lsrOp_eq_lsr, ← rolOp_eq_rol, ← rorOp_eq_ror]
  refine ⟨?aslZp, ?aslZpx, ?aslAbs, ?aslAbx, ?lsrZp, ?lsrZpx, ?lsrAbs, ?lsrAbx, ?rolZp, ?rolZpx, ?rolAbs, ?rolAbx, ?rorZp,
    ?rorZpx, ?rorAbs, ?rorAbx⟩
  case aslZp | lsrZp | rolZp | rorZp => exact .shift (fun _ => rfl) (steady_addrZp nn)
  case aslZpx | lsrZpx | rolZpx | rorZpx => exact .shift (fun _ => rfl) (steady_addrZpIndexed _ nn)
  case aslAbs | lsrAbs | rolAbs | rorAbs => exact .shift (fun _ => rfl) (steady_addrAbs addr)
  case aslAbx | lsrAbx | rolAbx | rorAbx => exact .shift (fun _ => rfl) (steady_addrAbsIndexed true _ addr)

/-- Settles O22: each is the implied mode over the shift of A. -/
theorem accumulatorShiftsComplete : Obligations.AccumulatorShiftsComplete := by
  unfold Obligations.AccumulatorShiftsComplete
  rw [← aslOp_eq_asl, ← lsrOp_eq_lsr, ← rolOp_eq_rol, ← rorOp_eq_ror, ← shiftFlags_eq_shifted]
  refine ⟨?asl, ?lsr, ?rol, ?ror⟩
  case asl | lsr | rol | ror => exact .intro fun _ => rfl

end Sys2Proof.Machine

/-! Control flow (44_control_flow.md). Between their stores these instructions are made of reads, pulls, polls and register updates;
`ReadCycles n` is what `n` such cycles change beside the registers and the interrupt decision, which are then read off the
sequence itself. BRK is `enterHandler`, whose lemmas hold for NMI and IRQ too. -/

namespace Sys2Proof.Machine

/-! ### Cycles that store nothing -/

/-- What `n` cycles that store nothing, with register updates and polls among them, do to the count, the jam and the frames. -/
structure ReadCycles (n : Nat) (s t : State) : Prop where
  cycles : t.mach.hidden.cycles = s.mach.hidden.cycles + n
  jammed : t.mach.hidden.jammed = s.mach.hidden.jammed
  kept   : Kept s t
  quiet  : Quiet s t

namespace ReadCycles

variable {n : Nat} {s t : State}

theorem refl (s : State) : ReadCycles 0 s s := ⟨rfl, rfl, .refl s, .refl s⟩

theorem read (h : ReadCycles n s t) (a : Word) : ReadCycles (n + 1) s (dummyRead a t) where
  cycles := by rw [dummyRead_cycles, h.cycles, Nat.add_assoc]
  jammed := (dummyRead_jammed a t).trans h.jammed
  kept := h.kept.read a
  quiet := h.quiet.trans (quiet_dummyRead a t)

theorem regs (h : ReadCycles n s t) (f : Regs → Regs) : ReadCycles n s (updateRegs f t) :=
  ⟨h.cycles, h.jammed, h.kept.regs f, h.quiet.trans (quiet_updateRegs f t)⟩

theorem hidden (h : ReadCycles n s t) (f : Hidden → Hidden) (hc : (f t.mach.hidden).cycles = t.mach.hidden.cycles)
    (hj : (f t.mach.hidden).jammed = t.mach.hidden.jammed)
    (hr : (f t.mach.hidden).rstPending = t.mach.hidden.rstPending) : ReadCycles n s (updateHidden f t) :=
  ⟨hc.trans h.cycles, hj.trans h.jammed, h.kept.hidden f hr, h.quiet.trans (quiet_updateHidden f t)⟩

theorem setPc (h : ReadCycles n s t) (a : Word) : ReadCycles n s (setPc a t) := h.regs _

theorem updateFlags (h : ReadCycles n s t) (f : Flags → Flags) : ReadCycles n s (updateFlags f t) := h.regs _

theorem poll (h : ReadCycles n s t) : ReadCycles n s (poll t) := h.hidden _ rfl rfl rfl

theorem pull (h : ReadCycles n s t) : ReadCycles (n + 1) s (pull t).2 := (h.regs _).read _

end ReadCycles

/-! ### Conditional branches (44_control_flow.md R400, 60_exceptions.md R613) -/

theorem branchTarget_eq_ofInt (a0 : Word) (oo : Byte) :
    branchTarget a0 oo = BitVec.ofInt 16 (a0.toNat + oo.toInt) := by
  rw [branchTarget, BitVec.ofInt_add, BitVec.ofInt_natCast, BitVec.ofNat_toNat, BitVec.setWidth_eq, BitVec.signExtend]

theorem hi_eq_hi_iff (v w : Word) : hi v = hi w ↔ v.toNat / 256 = w.toNat / 256 := by
  rw [← BitVec.toNat_inj, toNat_hi, toNat_hi]

theorem branch_notTaken {cond : Flags → Bool} {s : State} (h : cond s.mach.regs.p = false) (oo : Byte) :
    branch cond oo s = s := by
  simp [branch, h]

/-- In the page of the branch, replacing the low byte of PC is all there is to do. -/
theorem branch_samePage {cond : Flags → Bool} {s : State} {oo : Byte} (h : cond s.mach.regs.p = true)
    (hp : hi (branchTarget s.mach.regs.pc oo) = hi s.mach.regs.pc) :
    branch cond oo s = setPc (branchTarget s.mach.regs.pc oo) (dummyRead s.mach.regs.pc s) := by
  simp only [branch, h, hp, if_true]
  rw [← hp, word_hi_lo]

theorem branch_otherPage {cond : Flags → Bool} {s : State} {oo : Byte} (h : cond s.mach.regs.p = true)
    (hp : hi (branchTarget s.mach.regs.pc oo) ≠ hi s.mach.regs.pc) :
    let unfixed := word (hi s.mach.regs.pc) (lo (branchTarget s.mach.regs.pc oo))
    branch cond oo s = setPc (branchTarget s.mach.regs.pc oo)
      (dummyRead unfixed (poll (setPc unfixed (dummyRead s.mach.regs.pc s)))) := by
  simp only [branch, h, hp, if_true, if_false, setPc_regs]

theorem BranchCompletes.intro {i : Instr} {cond : Flags → Bool} {oo : Byte}
    (h : ∀ s, exec i s = .next (branch cond oo s)) : BranchCompletes i cond oo := by
  intro s a0 target
  have htarget : branchTarget a0 oo = target := branchTarget_eq_ofInt a0 oo
  have hpage : hi (branchTarget a0 oo) = hi a0 ↔ target.toNat / 256 = a0.toNat / 256 := by rw [hi_eq_hi_iff, htarget]
  cases hc : cond s.mach.regs.p with
  | false => rw [if_pos rfl, h, branch_notTaken hc]
  | true =>
    rw [if_neg (by decide), h]
    by_cases hp : hi (branchTarget a0 oo) = hi a0
    · have hr := ((ReadCycles.refl s).read a0).setPc target
      rw [branch_samePage hc hp, htarget]
      refine ⟨_, rfl, ?_, hr.jammed, hr.kept, hr.quiet.memoryKept, ?_⟩
      · rw [setPc_regs, dummyRead_regs]
      · rw [if_pos (hpage.mp hp)]
        exact ⟨dummyRead_intDue a0 s, hr.cycles⟩
    · have hr (a : Word) := ((((ReadCycles.refl s).read a0).setPc a).poll.read a).setPc target
      rw [branch_otherPage hc hp, htarget]
      refine ⟨_, rfl, ?_, (hr _).jammed, (hr _).kept, (hr _).quiet.memoryKept, ?_⟩
      · rw [setPc_regs, dummyRead_regs, poll_regs, setPc_regs, dummyRead_regs]
      · rw [if_neg (mt hpage.mpr hp)]
        exact ⟨dummyRead_intDue _ _, (hr _).cycles⟩

/-- Settles O23: each row is the shared branch (`BranchCompletes.intro`) on its flag. -/
theorem branchesComplete : Obligations.BranchesComplete := by
  unfold Obligations.BranchesComplete
  intro oo
  refine ⟨?bpl, ?bmi, ?bvc, ?bvs, ?bcc, ?bcs, ?bne, ?beq⟩
  case bpl | bmi | bvc | bvs | bcc | bcs | bne | beq => exact .intro fun _ => rfl

/-! ### JMP (44_control_flow.md R409, 40_addressing.md R212) -/

/-- The second byte of the pointer is read where an indexed mode reads before the page is fixed: at the sum that stays in the
page. -/
theorem exec_jmpInd (addr : Word) (s : State) : exec (.jmpInd addr) s =
    let s4 := dummyRead addr s
    .next (setPc (word (peek (unfixed addr 1) (poll s4)) (peek addr s)) (dummyRead (unfixed addr 1) (poll s4))) := rfl

/-- Settles O24: JMP absolute is its meaning, and the page wrap of JMP indirect is `unfixed_eq_ofNat`. -/
theorem jumpsComplete : Obligations.JumpsComplete := by
  unfold Obligations.JumpsComplete
  intro addr s
  refine ⟨rfl, ?_⟩
  intro s4 second
  have hsecond : unfixed addr 1 = second := unfixed_eq_ofNat addr 1
  have hr := ((((ReadCycles.refl s).read addr).poll).read second).setPc (word (peek second (poll s4)) (peek addr s))
  rw [exec_jmpInd, hsecond]
  refine ⟨_, rfl, ?_, ?_, hr.jammed, hr.cycles, hr.kept, hr.quiet.memoryKept⟩
  · rw [setPc_regs, dummyRead_regs, poll_regs, dummyRead_regs, peek_poll, word_eq_ofNat]
  · rw [setPc_hidden, dummyRead_intDue, poll_hidden]

/-! ### Returns: RTS and RTI (44_control_flow.md R412, R413) -/

/-- The cycles c2 and c3 that RTS and RTI begin with: a read at PC and one at the stack. -/
def returnPrelude (s : State) : State :=
  dummyRead (BitVec.ofNat 16 (256 + s.mach.regs.s.toNat)) (dummyRead s.mach.regs.pc s)

theorem stackRead_eq_returnPrelude (s : State) :
    dummyRead (stackAddr (dummyRead s.mach.regs.pc s)) (dummyRead s.mach.regs.pc s) = returnPrelude s := by
  rw [stackAddr_eq, dummyRead_regs, returnPrelude]

theorem returnPrelude_regs (s : State) : (returnPrelude s).mach.regs = s.mach.regs := by
  rw [returnPrelude, dummyRead_regs, dummyRead_regs]

theorem returnPrelude_readCycles (s : State) : ReadCycles 2 s (returnPrelude s) := ((ReadCycles.refl s).read _).read _

/-- After cycles that store nothing and leave S `k` higher, a pull delivers the byte `k + 1` above the first S. -/
theorem ReadCycles.pull_fst {n : Nat} {s t : State} (h : ReadCycles n s t) {k : Nat}
    (hs : t.mach.regs.s = s.mach.regs.s + BitVec.ofNat 8 k) : (Machine.pull t).1 = pulledByte s (k + 1) := by
  rw [(pull_pulls t).value, pulledByte, pulledByte, h.quiet.ram, hs, BitVec.toNat_add, BitVec.toNat_ofNat]
  congr 1
  omega

theorem pull_regs (s : State) : (pull s).2.mach.regs = { s.mach.regs with s := s.mach.regs.s + 1 } := (pull_pulls s).regs

theorem pull_intDue (s : State) : (pull s).2.mach.hidden.intDue = s.mach.hidden.intDue := (pull_pulls s).intDue

theorem unpackP_eq_flags (v : Byte) : unpackP v = Spec.flags v := by
  simp only [unpackP, Spec.flags, getLsbD_eq_bit]

/-- RTS with its two pulled bytes named. -/
theorem exec_rts (s : State) : exec .rts s =
    let ret := word (pulledByte s 2) (pulledByte s 1)
    .next (setPc (ret + 1) (dummyRead ret (poll (pull (pull (returnPrelude s)).2).2))) := by
  have h3 := returnPrelude_readCycles s
  have v1 : (pull (returnPrelude s)).1 = pulledByte s 1 := h3.pull_fst (k := 0) (by simp [returnPrelude_regs])
  have v2 : (pull (pull (returnPrelude s)).2).1 = pulledByte s 2 :=
    h3.pull.pull_fst (k := 1) (by rw [pull_regs, returnPrelude_regs]; rfl)
  rw [← v1, ← v2, ← stackRead_eq_returnPrelude]
  rfl

/-- RTI with its three pulled bytes named; the poll comes after the first of them has set the flags. -/
theorem exec_rti (s : State) : exec .rti s =
    let s4 := updateFlags (fun _ => Spec.flags (pulledByte s 1)) (pull (returnPrelude s)).2
    .next (setPc (word (pulledByte s 3) (pulledByte s 2)) (pull (poll (pull s4).2)).2) := by
  extract_lets s4
  have h3 := returnPrelude_readCycles s
  have h4 : ReadCycles 3 s s4 := h3.pull.updateFlags _
  have hs : s4.mach.regs.s = s.mach.regs.s + 1 := by rw [updateFlags_regs, pull_regs, returnPrelude_regs]
  have v1 : (pull (returnPrelude s)).1 = pulledByte s 1 := h3.pull_fst (k := 0) (by simp [returnPrelude_regs])
  have v2 : (pull s4).1 = pulledByte s 2 := h4.pull_fst (k := 1) hs
  have v3 : (pull (poll (pull s4).2)).1 = pulledByte s 3 :=
    h4.pull.poll.pull_fst (k := 2) (by rw [poll_regs, pull_regs, hs, BitVec.add_assoc]; rfl)
  rw [← v2, ← v3]
  unfold s4
  rw [← v1, ← unpackP_eq_flags, ← stackRead_eq_returnPrelude]
  rfl

/-- Settles O27: RTI is `exec_rti`, whose poll is made with the flags of the first byte pulled. -/
theorem returnFromInterruptRestores : Obligations.ReturnFromInterruptRestores := by
  unfold Obligations.ReturnFromInterruptRestores
  intro s s3 s4 s5
  have h4 : ReadCycles 3 s s4 := (returnPrelude_readCycles s).pull.updateFlags _
  have hr := h4.pull.poll.pull.setPc (word (pulledByte s 3) (pulledByte s 2))
  have r5 : s5.mach.regs = { s.mach.regs with p := Spec.flags (pulledByte s 1), s := s.mach.regs.s + 1 + 1 } := by
    simp only [s5, s4, s3, pull_regs, updateFlags_regs, dummyRead_regs]
  refine ⟨setPc _ (pull (poll s5)).2, exec_rti s, ?_, ?_, hr.jammed, hr.cycles, hr.kept, hr.quiet.memoryKept⟩
  · simp only [setPc_regs, pull_regs, poll_regs, r5, word_eq_ofNat, BitVec.add_assoc]
    rfl
  · simp only [setPc_hidden, pull_intDue, poll_hidden, pollResult, r5]

/-! ### Pushing PC, and JSR (44_control_flow.md R411, 60_exceptions.md R606) -/

theorem lo_eq_ofNat (w : Word) : lo w = BitVec.ofNat 8 w.toNat := (BitVec.ofNat_toNat 8 w).symm

theorem hi_eq_ofNat (w : Word) : hi w = BitVec.ofNat 8 (w.toNat / 256) := by
  rw [← toNat_hi, BitVec.ofNat_toNat, BitVec.setWidth_eq]

theorem pushPc_pushes {s : State} (m : Memory.wf s.mach.ram = true) :
    Pushes [BitVec.ofNat 8 (s.mach.regs.pc.toNat / 256), BitVec.ofNat 8 s.mach.regs.pc.toNat] s (pushPc s) := by
  rw [← hi_eq_ofNat, ← lo_eq_ofNat]
  exact (pushes_one m (hi s.mach.regs.pc)).push (by rw [List.length_singleton]; decide) (lo s.mach.regs.pc)

/-- JSR reads its last byte after the pushes, at the PC they leave alone. -/
theorem exec_jsrAbs (addr : Word) {s : State} (m : Memory.wf s.mach.ram = true) : exec (.jsrAbs addr) s =
    let pc := s.mach.regs.pc
    let s5 := pushPc (dummyRead (BitVec.ofNat 16 (256 + s.mach.regs.s.toNat)) s)
    .next (setPc (word (peek pc (poll s5)) (lo addr)) (dummyRead pc (poll s5))) := by
  have hpc : (pushPc (dummyRead (stackAddr s) s)).mach.regs.pc = s.mach.regs.pc := by
    rw [(pushPc_pushes ((quiet_dummyRead _ s).ram ▸ m)).regs, dummyRead_regs]
  rw [← hpc, ← stackAddr_eq]
  rfl

/-- Settles O25: JSR is a read, the pushes of PC (`pushPc_pushes`), the poll and the read of its last byte; RTS is `exec_rts`, made of
reads and pulls alone. -/
theorem subroutineCallAndReturnComplete : Obligations.SubroutineCallAndReturnComplete := by
  unfold Obligations.SubroutineCallAndReturnComplete
  refine ⟨?jsr, ?rts⟩
  case jsr =>
    intro addr s m pc s5
    have h1 := steady_dummyRead (BitVec.ofNat 16 (256 + s.mach.regs.s.toNat)) s
    have hp := pushPc_pushes (h1.quiet.ramsOk m.rams).1
    rw [h1.regs] at hp
    obtain ⟨hkept, hpushed⟩ := hp.after h1.quiet h1.kept h1.regs
    have hr := ((ReadCycles.refl s5).poll.read pc).setPc (word (peek pc (poll s5)) (lo addr))
    refine ⟨_, exec_jsrAbs addr m.ram.1, ?_, fun b hb => ?_, hpushed.quiet hr.quiet, ?_,
      hr.jammed.trans (hp.jammed.trans h1.jammed), ?_, hkept.trans hr.kept⟩
    · rw [setPc_regs, dummyRead_regs, poll_regs, hp.regs, h1.regs, word_eq_ofNat, toNat_lo]
      rfl
    · rw [peek_poll, peek_memByte hb]
    · rw [setPc_hidden, dummyRead_intDue, poll_hidden]
    · rw [hr.cycles, hp.cycles, dummyRead_cycles]
      rfl
  case rts =>
    intro s s3
    have h5 : ReadCycles 4 s (pull (pull s3).2).2 := (returnPrelude_readCycles s).pull.pull
    have hr (a : Word) := (h5.poll.read a).setPc (a + 1)
    refine ⟨_, exec_rts s, ?_, ?_, (hr _).jammed, (hr _).cycles, (hr _).kept, (hr _).quiet.memoryKept⟩
    · simp only [setPc_regs, dummyRead_regs, poll_regs, pull_regs, returnPrelude_regs, word_eq_ofNat, BitVec.add_assoc,
        BitVec.ofNat_add]
      rfl
    · simp only [setPc_hidden, dummyRead_intDue, poll_hidden]
      rfl

/-! ### The vector fetch, and entering a handler (60_exceptions.md R605 to R607, R611) -/

/-- The sampling at the end of a cycle latches an edge of the NMI line (60_exceptions.md R604). -/
theorem endCycle_nmiPending (s : State) : (endCycle s).mach.hidden.nmiPending =
    (s.mach.hidden.nmiPending || ((endCycle s).mach.ppu.nmiOut && !s.mach.hidden.nmiPrev)) := rfl

theorem dummyRead_nmiPending (a : Word) (s : State) : (dummyRead a s).mach.hidden.nmiPending =
    (s.mach.hidden.nmiPending || ((dummyRead a s).mach.ppu.nmiOut && !s.mach.hidden.nmiPrev)) := by
  rw [dummyRead, endCycle_nmiPending, busRead_hidden]

theorem packP_eq_image (b : Bool) (f : Flags) : packP b f = Spec.image b f := by
  obtain ⟨n, v, d, i, z, c⟩ := f
  revert b n v d i z c
  decide

/-- The state between the two reads of a vector fetch: I set, and a pending NMI cleared with its vector. -/
def vectorTaken (vec : Word) (s : State) : State :=
  updateHidden (fun h => { h with nmiPending := h.nmiPending && vec != nmiVector })
    (updateFlags (fun f => { f with i := true }) (dummyRead vec s))

theorem vectorFetch_eq (vec : Word) (s : State) : vectorFetch vec s =
    updateHidden (fun h => { h with intDue := false })
      (setPc (word (peek (vec + 1) (vectorTaken vec s)) (peek vec s)) (dummyRead (vec + 1) (vectorTaken vec s))) := rfl

theorem vectorFetch_readCycles (vec : Word) (s : State) : ReadCycles 2 s (vectorFetch vec s) :=
  have h1 : ReadCycles 1 s (dummyRead vec s) := (ReadCycles.refl s).read vec
  have h6 : ReadCycles 1 s (vectorTaken vec s) := (h1.updateFlags _).hidden _ rfl rfl rfl
  ((h6.read (vec + 1)).setPc _).hidden (fun h => { h with intDue := false }) rfl rfl rfl

theorem vectorFetch_intDue (vec : Word) (s : State) : (vectorFetch vec s).mach.hidden.intDue = false := rfl

/-- The clearing follows the cycle c6 (log entry 23), so that only an edge in c7 can be latched past it. -/
theorem vectorFetch_nmiPending (vec : Word) (s : State) : (vectorFetch vec s).mach.hidden.nmiPending =
    (((dummyRead vec s).mach.hidden.nmiPending && vec != nmiVector) ||
      ((vectorFetch vec s).mach.ppu.nmiOut && !(dummyRead vec s).mach.hidden.nmiPrev)) := by
  have h7 := dummyRead_nmiPending (vec + 1) (vectorTaken vec s)
  simp only [vectorFetch_eq, updateHidden_hidden, updateHidden_ppu, setPc_hidden, setPc_ppu, h7]
  simp only [vectorTaken, updateHidden_hidden, updateFlags_hidden]

theorem vectorTaken_quiet (vec : Word) (s : State) : Quiet s (vectorTaken vec s) :=
  ((quiet_dummyRead vec s).trans (quiet_updateRegs _ _)).trans (quiet_updateHidden _ _)

theorem vectorFetch_regs {vec : Word} (h : 0x4020 ≤ vec) (h1 : 0x4020 ≤ vec + 1) (s : State) :
    (vectorFetch vec s).mach.regs =
      { s.mach.regs with p := { s.mach.regs.p with i := true }, pc := vectorWord vec s.mach.openBus s } := by
  have hbus : (vectorTaken vec s).mach.openBus = peek vec s := dummyRead_openBus (by bv_omega) s
  rw [vectorFetch_eq, word_of_vector h h1 hbus ((vectorTaken_quiet vec s).memByte _)]
  simp only [updateHidden_regs, setPc_regs, dummyRead_regs, vectorTaken, updateFlags_regs]

theorem chooseVector_cartridge (s : State) : 0x4020 ≤ chooseVector s ∧ 0x4020 ≤ chooseVector s + 1 := by
  unfold chooseVector
  split <;> decide

theorem vectorWord_congr {vec : Word} {s t : State} (h : memByte vec t = memByte vec s)
    (h1 : memByte (vec + 1) t = memByte (vec + 1) s) (bus : Byte) : vectorWord vec bus t = vectorWord vec bus s := by
  rw [vectorWord, vectorWord, h, h1]

theorem push_openBus (v : Byte) (s : State) : (push v s).mach.openBus = v := busWrite_openBus _ v s

/-- What an exception pushes: PC, its high byte first, and the image of P (60_exceptions.md R605, R611). -/
theorem push_image_pushes (b : Bool) {s : State} (m : Memory.wf s.mach.ram = true) :
    Pushes [BitVec.ofNat 8 (s.mach.regs.pc.toNat / 256), BitVec.ofNat 8 s.mach.regs.pc.toNat, Spec.image b s.mach.regs.p] s
      (push (Spec.image b s.mach.regs.p) (pushPc s)) :=
  (pushPc_pushes m).push (by simp) _

theorem enterHandler_eq (b : Bool) {s : State} (m : Memory.wf s.mach.ram = true) : enterHandler b s =
    vectorFetch (chooseVector (pushPc s)) (push (Spec.image b s.mach.regs.p) (pushPc s)) := by
  rw [enterHandler, packP_eq_image, (pushPc_pushes m).regs]

/-- Settles O26: BRK is the pushes (`push_image_pushes`) and then the vector fetch, whose two reads find open bus where the
cartridge drives nothing (`vectorFetch_regs`): there the bus holds the image of P, the last byte pushed. -/
theorem breakEntersTheHandler : Obligations.BreakEntersTheHandler := by
  unfold Obligations.BreakEntersTheHandler
  intro pad s m r s4 vec s6
  let s5 := push (Spec.image true r.p) s4
  have hp : Pushes _ s s5 := push_image_pushes true m.ram.1
  obtain ⟨hkept, hpushed⟩ := hp.after (.refl s) (.refl s) rfl
  obtain ⟨hvec, hvec1⟩ : 0x4020 ≤ vec ∧ 0x4020 ≤ vec + 1 := chooseVector_cartridge s4
  have hv := vectorFetch_readCycles vec s5
  refine ⟨vectorFetch vec s5, congrArg Host.Outcome.next (enterHandler_eq true m.ram.1), ?_, hpushed.quiet hv.quiet,
    vectorFetch_nmiPending vec s5, vectorFetch_intDue vec s5, hv.jammed.trans hp.jammed, ?_, hkept.trans hv.kept⟩
  · have hword := vectorWord_congr (hpushed.high vec (by bv_omega)) (hpushed.high (vec + 1) (by bv_omega))
    rw [vectorFetch_regs hvec hvec1, push_openBus, hword, hp.regs]
    rfl
  · rw [hv.cycles, hp.cycles]
    rfl

end Sys2Proof.Machine

/-! Stack, flags and NOPs (45_stack_flags_misc.md). PHA and PHP share one sequence of cycles, and so do PLA and PLP; each sequence is
proved once, over the byte pushed or the registers made of the byte pulled. -/

namespace Sys2Proof.Machine

/-! ### Pushes: PHA and PHP (45_stack_flags_misc.md R450, R451) -/

/-- A push instruction of the byte `val` of the registers: the read at PC, whose end is the poll, then the push. -/
def PushCompletes (i : Instr) (val : Regs → Byte) : Prop :=
  ∀ s, MemoriesOk s.mach → ∃ t, exec i s = .next t ∧ t.mach.regs = { s.mach.regs with s := s.mach.regs.s - 1 } ∧
    Pushed [val s.mach.regs] s t ∧ t.mach.hidden.intDue = pollResult (dummyRead s.mach.regs.pc s) ∧
    t.mach.hidden.jammed = s.mach.hidden.jammed ∧ t.mach.hidden.cycles = s.mach.hidden.cycles + 2 ∧ Kept s t

theorem PushCompletes.intro {i : Instr} {val : Regs → Byte}
    (h : ∀ s, let s2 := poll (dummyRead s.mach.regs.pc s); exec i s = .next (push (val s2.mach.regs) s2)) :
    PushCompletes i val := by
  intro s m
  have hr : ReadCycles 1 s (poll (dummyRead s.mach.regs.pc s)) := ((ReadCycles.refl s).read _).poll
  have hregs : (poll (dummyRead s.mach.regs.pc s)).mach.regs = s.mach.regs := by rw [poll_regs, dummyRead_regs]
  have hp := pushes_one (hr.quiet.ramsOk m.rams).1 (val s.mach.regs)
  obtain ⟨hkept, hpushed⟩ := hp.after hr.quiet hr.kept hregs
  rw [h, hregs]
  refine ⟨_, rfl, ?_, hpushed, ?_, hp.jammed.trans hr.jammed, ?_, hkept⟩
  · rw [hp.regs, hregs]
    rfl
  · rw [hp.intDue, poll_hidden]
  · rw [hp.cycles, hr.cycles, List.length_singleton]

/-! ### Pulls: PLA and PLP (45_stack_flags_misc.md R452, R453) -/

/-- A pull instruction that makes `op` of the byte pulled and the registers: the read at PC, the one at the stack, whose end is the
poll, then the pull. -/
def PullCompletes (i : Instr) (op : Byte → Regs → Regs) : Prop :=
  ∀ s, ∃ t, exec i s = .next t ∧
    t.mach.regs = op (pulledByte s 1) { s.mach.regs with s := s.mach.regs.s + 1 } ∧
    t.mach.hidden.intDue = pollResult (returnPrelude s) ∧ t.mach.hidden.jammed = s.mach.hidden.jammed ∧
    t.mach.hidden.cycles = s.mach.hidden.cycles + 3 ∧ Kept s t ∧ MemoryKept s t

theorem PullCompletes.intro {i : Instr} {op : Byte → Regs → Regs}
    (h : ∀ s, let s2 := dummyRead s.mach.regs.pc s
      let c4 := pull (poll (dummyRead (stackAddr s2) s2))
      exec i s = .next (updateRegs (op c4.1) c4.2)) : PullCompletes i op := by
  intro s
  have h3 : ReadCycles 2 s (poll (returnPrelude s)) := (returnPrelude_readCycles s).poll
  have hregs : (poll (returnPrelude s)).mach.regs = s.mach.regs := by rw [poll_regs, returnPrelude_regs]
  have hvalue : (pull (poll (returnPrelude s))).1 = pulledByte s 1 := h3.pull_fst (k := 0) (by rw [hregs]; simp)
  have h4 := h3.pull.regs (op (pulledByte s 1))
  rw [h, stackRead_eq_returnPrelude, hvalue]
  refine ⟨_, rfl, ?_, ?_, h4.jammed, h4.cycles, h4.kept, h4.quiet.memoryKept⟩
  · rw [updateRegs_regs, pull_regs, hregs]
  · rw [updateRegs_hidden, pull_intDue, poll_hidden]

/-- Settles O28: PHA and PHP are `PushCompletes.intro`, PLA and PLP `PullCompletes.intro`; the image of P and the flags made of one
are those of `Spec` (`packP_eq_image`, `unpackP_eq_flags`). -/
theorem pushesAndPullsComplete : Obligations.PushesAndPullsComplete := by
  unfold Obligations.PushesAndPullsComplete
  have hpha : PushCompletes .pha Regs.a := .intro fun _ => rfl
  have hphp : PushCompletes .php (fun r => packP true r.p) := .intro fun _ => rfl
  have hpla : PullCompletes .pla Regs.loadA := .intro fun _ => rfl
  have hplp : PullCompletes .plp (fun v r => { r with p := unpackP v }) := .intro fun _ => rfl
  simp only [packP_eq_image] at hphp
  rw [loadA_eq_lda] at hpla
  simp only [unpackP_eq_flags] at hplp
  exact ⟨fun s m => ⟨hpha s m, hphp s m⟩, fun s => ⟨hpla s, hplp s⟩⟩

/-! ### The flag instructions (45_stack_flags_misc.md R454 to R460) -/

/-- Settles O29: each is the implied mode, whose poll comes before the change, over the change of its one flag. -/
theorem flagInstructionsComplete : Obligations.FlagInstructionsComplete := by
  unfold Obligations.FlagInstructionsComplete
  refine ⟨?clc, ?cld, ?cli, ?clv, ?sec, ?sed, ?sei⟩
  case clc | cld | cli | clv | sec | sed | sei => exact .intro fun _ => rfl

/-! ### The NOPs (45_stack_flags_misc.md R461, 46_unofficial.md R514) -/

/-- Settles O30: an implied row is `ImpliedNopCompletes.intro`, a row with an address `ReadNopCompletes.intro` at its addressing
mode, and an immediate row makes no cycle after its fetch. -/
theorem nopsComplete : Obligations.NopsComplete := by
  unfold Obligations.NopsComplete
  intro nn addr
  refine ⟨?imp1A, ?imp3A, ?imp5A, ?imp7A, ?impDA, ?impEA, ?impFA, ?zp04, ?abs0C, ?zpx14, ?abx1C, ?zpx34, ?abx3C, ?zp44, ?zpx54,
    ?abx5C, ?zp64, ?zpx74, ?abx7C, ?imm80, ?imm82, ?imm89, ?immC2, ?zpxD4, ?abxDC, ?immE2, ?zpxF4, ?abxFC⟩
  case imp1A | imp3A | imp5A | imp7A | impDA | impEA | impFA => exact .intro fun _ => rfl
  case zp04 | zp44 | zp64 => exact .intro (fun _ => rfl) (steady_addrZp nn)
  case abs0C => exact .intro (fun _ => rfl) (steady_addrAbs addr)
  case zpx14 | zpx34 | zpx54 | zpx74 | zpxD4 | zpxF4 => exact .intro (fun _ => rfl) (steady_addrZpIndexed _ nn)
  case abx1C | abx3C | abx5C | abx7C | abxDC | abxFC => exact .intro (fun _ => rfl) (steady_addrAbsIndexed false _ addr)
  case imm80 | imm82 | imm89 | immC2 | immE2 => exact fun _ => rfl

end Sys2Proof.Machine

/-! Non-documented opcodes (46_unofficial.md). What they do to a register or a flag is put together from the operations above, so
that their results in the numbers of `Spec` follow from those of the parts; each statement is then the class's lemma at the
row's addressing mode. The SH stores and JAM have sequences of their own. -/

namespace Sys2Proof.Machine

/-! ### Combined read-modify-write opcodes (46_unofficial.md R501 to R504, R507, R508) -/

theorem slo_eq_shiftThen : Spec.slo = fun old r => (shiftThen aslOp Regs.or old r).2 := by
  unfold Spec.slo
  rw [← aslOp_eq_asl, ← loadA_eq_lda]
  rfl

theorem rla_eq_shiftThen : Spec.rla = fun old r => (shiftThen rolOp Regs.and old r).2 := by
  unfold Spec.rla
  rw [← rolOp_eq_rol, ← loadA_eq_lda]
  rfl

theorem sre_eq_shiftThen : Spec.sre = fun old r => (shiftThen lsrOp Regs.eor old r).2 := by
  unfold Spec.sre
  rw [← lsrOp_eq_lsr, ← loadA_eq_lda]
  rfl

theorem rra_eq_shiftThen : Spec.rra = fun old r => (shiftThen rorOp Regs.addC old r).2 := by
  unfold Spec.rra
  rw [← rorOp_eq_ror, ← addC_eq_adc]
  rfl

/-- A shift of memory completes with the shift's result stored, and then the operation on it, after the carry of the shift. -/
theorem ModifyCompletes.shiftThen {i : Instr} {op : Byte → Bool → Byte × Bool} {f : Byte → Regs → Regs} {addr : AddrFn}
    (h : ∀ s, exec i s = .next (classM (Machine.shiftThen op f) addr s)) (ha : ∀ s, Steady s (addr s).2) :
    ModifyCompletes i addr (fun old r => (op old r.p.c).1) (fun old r => (Machine.shiftThen op f old r).2) :=
  .intro h ha

/-- An opcode that stores a function of the byte read completes with it stored, and then the operation on it. -/
theorem ModifyCompletes.mapThen {i : Instr} {g : Byte → Byte} {f : Byte → Regs → Regs} {addr : AddrFn}
    (h : ∀ s, exec i s = .next (classM (fun old r => (g old, f (g old) r)) addr s)) (ha : ∀ s, Steady s (addr s).2) :
    ModifyCompletes i addr (fun old _ => g old) (fun old r => f (g old) r) :=
  .intro h ha

/-- Settles O31: each row is `ModifyCompletes.shiftThen` at its addressing mode, the indexed modes in their form that always takes
the cycle before the page is fixed; the shifts and the operations on A are those of `Spec` (`slo_eq_shiftThen` and its like). -/
theorem shiftAndCombineComplete : Obligations.ShiftAndCombineComplete := by
  unfold Obligations.ShiftAndCombineComplete
  intro nn addr
  rw [slo_eq_shiftThen, rla_eq_shiftThen, sre_eq_shiftThen, rra_eq_shiftThen, ← aslOp_eq_asl, ← lsrOp_eq_lsr, ← rolOp_eq_rol,
    ← rorOp_eq_ror]
  refine ⟨?sloZp, ?sloZpx, ?sloAbs, ?sloAbx, ?sloAby, ?sloIzx, ?sloIzy, ?rlaZp, ?rlaZpx, ?rlaAbs, ?rlaAbx, ?rlaAby, ?rlaIzx,
    ?rlaIzy, ?sreZp, ?sreZpx, ?sreAbs, ?sreAbx, ?sreAby, ?sreIzx, ?sreIzy, ?rraZp, ?rraZpx, ?rraAbs, ?rraAbx, ?rraAby, ?rraIzx,
    ?rraIzy⟩
  case sloZp | rlaZp | sreZp | rraZp => exact .shiftThen (fun _ => rfl) (steady_addrZp nn)
  case sloZpx | rlaZpx | sreZpx | rraZpx => exact .shiftThen (fun _ => rfl) (steady_addrZpIndexed _ nn)
  case sloAbs | rlaAbs | sreAbs | rraAbs => exact .shiftThen (fun _ => rfl) (steady_addrAbs addr)
  case sloAbx | sloAby | rlaAbx | rlaAby | sreAbx | sreAby | rraAbx | rraAby =>
    exact .shiftThen (fun _ => rfl) (steady_addrAbsIndexed true _ addr)
  case sloIzx | rlaIzx | sreIzx | rraIzx => exact .shiftThen (fun _ => rfl) (steady_addrIzx nn)
  case sloIzy | rlaIzy | sreIzy | rraIzy => exact .shiftThen (fun _ => rfl) (steady_addrIzy true nn)

/-- Settles O32: each row is `ModifyCompletes.mapThen` at its addressing mode, the indexed modes in their form that always takes
the cycle before the page is fixed; plus or minus one modulo 256 is that of the byte (`byte_succ`, `byte_pred`). -/
theorem decrementCompareIncrementSubtractComplete : Obligations.DecrementCompareIncrementSubtractComplete := by
  unfold Obligations.DecrementCompareIncrementSubtractComplete
  intro nn addr
  simp only [byte_succ, byte_pred, ← cmp_eq_cmp, ← subC_eq_sbc]
  refine ⟨?dcpZp, ?dcpZpx, ?dcpAbs, ?dcpAbx, ?dcpAby, ?dcpIzx, ?dcpIzy, ?iscZp, ?iscZpx, ?iscAbs, ?iscAbx, ?iscAby, ?iscIzx,
    ?iscIzy⟩
  case dcpZp | iscZp => exact .mapThen (fun _ => rfl) (steady_addrZp nn)
  case dcpZpx | iscZpx => exact .mapThen (fun _ => rfl) (steady_addrZpIndexed _ nn)
  case dcpAbs | iscAbs => exact .mapThen (fun _ => rfl) (steady_addrAbs addr)
  case dcpAbx | dcpAby | iscAbx | iscAby => exact .mapThen (fun _ => rfl) (steady_addrAbsIndexed true _ addr)
  case dcpIzx | iscIzx => exact .mapThen (fun _ => rfl) (steady_addrIzx nn)
  case dcpIzy | iscIzy => exact .mapThen (fun _ => rfl) (steady_addrIzy true nn)

/-! ### Combined register opcodes (46_unofficial.md R505, R506, R509 to R512, R521) -/

theorem loadAX_eq_lax : Regs.loadAX = Spec.lax := by
  funext v r
  rw [Regs.loadAX, Spec.lax, setNZ_eq_nz]

theorem las_eq_las : Regs.las = Spec.las := by
  funext v r
  rw [Regs.las, loadAX_eq_lax]
  rfl

/-- Settles O33: SAX is `WriteCompletes.intro`, LAX and LAS are `ReadCompletes.intro`, each at its row's addressing mode. -/
theorem combinedStoresAndLoadsComplete : Obligations.CombinedStoresAndLoadsComplete := by
  unfold Obligations.CombinedStoresAndLoadsComplete
  intro nn addr
  rw [← loadAX_eq_lax, ← las_eq_las]
  refine ⟨?saxZp, ?saxZpy, ?saxAbs, ?saxIzx, ?laxZp, ?laxZpy, ?laxAbs, ?laxAby, ?laxIzx, ?laxIzy, ?lasAby⟩
  case saxZp | laxZp => exact .intro (fun _ => rfl) (steady_addrZp nn)
  case saxZpy | laxZpy => exact .intro (fun _ => rfl) (steady_addrZpIndexed _ nn)
  case saxAbs | laxAbs => exact .intro (fun _ => rfl) (steady_addrAbs addr)
  case saxIzx | laxIzx => exact .intro (fun _ => rfl) (steady_addrIzx nn)
  case laxAby | lasAby => exact .intro (fun _ => rfl) (steady_addrAbsIndexed false _ addr)
  case laxIzy => exact .intro (fun _ => rfl) (steady_addrIzy false nn)

theorem anc_eq_anc : Regs.anc = Spec.anc := by
  funext v r
  rw [Regs.anc, Spec.anc, Regs.and, loadA_eq_lda, getLsbD_eq_bit]
  rfl

theorem alr_eq_alr : Regs.alr = Spec.alr := by
  funext v r
  rw [Regs.alr, Spec.alr, shiftRight_one_eq_byte, setNZ_eq_nz, getLsbD_eq_bit]

theorem arr_eq_arr : Regs.arr = Spec.arr := by
  funext v r
  rw [Regs.arr, Spec.arr, rotateRight_eq_byte, setNZ_eq_nz, getLsbD_eq_bit, getLsbD_eq_bit]

theorem sbx_eq_sbx : Regs.sbx = Spec.sbx := by
  funext v r
  rw [Regs.sbx, Spec.sbx, byte_toNat_sub, compare_eq_compare]

/-- Settles O34: an immediate row makes no cycle after its fetch, and its operation is that of `Spec`. -/
theorem combinedImmediatesComplete : Obligations.CombinedImmediatesComplete := by
  unfold Obligations.CombinedImmediatesComplete
  intro nn
  rw [← anc_eq_anc, ← alr_eq_alr, ← arr_eq_arr, ← sbx_eq_sbx]
  refine ⟨?anc0B, ?anc2B, ?alr, ?arr, ?sbx⟩
  case anc0B | anc2B | alr | arr | sbx => exact fun _ => rfl

/-! ### Unstable opcodes (46_unofficial.md R515 to R520) -/

/-- Settles O35: the loads are those of `Spec` (`loadA_eq_lda`, `loadAX_eq_lax`), whatever byte the constant makes of their
operand. -/
theorem unstableImmediatesComplete : Obligations.UnstableImmediatesComplete := by
  unfold Obligations.UnstableImmediatesComplete
  intro nn
  rw [← loadA_eq_lda, ← loadAX_eq_lax]
  refine ⟨?ane, ?lxa⟩
  case ane | lxa => exact fun _ => rfl

/-- The value that an SH store makes, with the base's high byte plus one as a number. -/
theorem and_shHigh_eq_shValue (src : Byte) (base : Word) : src &&& shHigh base = Spec.shValue src base := by
  rw [shHigh, Spec.shValue, ← toNat_hi, byte_succ]

theorem shAddr_eq_shAddress (src index : Byte) (base : Word) :
    shAddr base index (Spec.shValue src base) = Spec.shAddress src base index := by
  have hlow : (lo (indexed base index)).toNat = (base.toNat + index.toNat) % 256 := by
    rw [toNat_lo, indexed_eq_ofNat, BitVec.toNat_ofNat]
    omega
  by_cases hcross : 256 ≤ base.toNat % 256 + index.toNat
  · rw [shAddr, if_pos ((pageCross_iff base index).mpr hcross), Spec.shAddress, if_neg (by omega), word_eq_ofNat, hlow,
      Nat.add_comm]
  · rw [shAddr, if_neg (mt (pageCross_iff base index).mp hcross), Spec.shAddress, if_pos (by omega), indexed_eq_ofNat]

theorem shStore_eq (src : Regs → Byte) (base : Word) (index : Byte) (s : State) : shStore src base index s =
    memWrite (Spec.shAddress (src s.mach.regs) base index) (Spec.shValue (src s.mach.regs) base)
      (poll (fixCycle true base index s)) := by
  rw [shStore, and_shHigh_eq_shValue, shAddr_eq_shAddress]

/-- An SH store completes when its last cycle writes the value and the address of `Spec`, after the mode's cycles and the poll. -/
theorem ShCompletes.intro {i : Instr} {addr : AddrFn} {src index : Regs → Byte} {base : State → Word} {result : Regs → Regs}
    (h : ∀ s, exec i s = .next (updateRegs result (memWrite
      (Spec.shAddress (src s.mach.regs) (base s) (index s.mach.regs)) (Spec.shValue (src s.mach.regs) (base s))
      (poll (addr s).2))))
    (ha : ∀ s, Steady s (addr s).2) : ShCompletes i addr src base index result := by
  intro s m
  obtain ⟨hregs, hdue, hjam, hcycles, hkept, hstored⟩ := write_completes (ha s) m.rams
    (Spec.shAddress (src s.mach.regs) (base s) (index s.mach.regs)) (Spec.shValue (src s.mach.regs) (base s))
  exact ⟨_, h s, congrArg result hregs, hdue, hjam, hcycles, hkept.trans (kept_updateRegs _ _),
    hstored.quiet (quiet_updateRegs _ _) rfl⟩

/-- An SH opcode with an absolute base: its store, and the register it sets beside. -/
theorem ShCompletes.absIndexed {i : Instr} {src index : Regs → Byte} {addr : Word} {result : Regs → Regs}
    (h : ∀ s, exec i s = .next (updateRegs result (shStore src addr (index s.mach.regs) s))) :
    ShCompletes i (addrAbsIndexed true index addr) src (fun _ => addr) index result :=
  .intro (fun s => by rw [h, shStore_eq]; rfl) (steady_addrAbsIndexed true index addr)

/-- SHA (nn),Y stores at its pointer, whose two bytes are cells of page zero. -/
theorem exec_shaIzy (nn : Byte) (s : State) : exec (.shaIzy nn) s =
    let base := BitVec.ofNat 16 ((Cells.read s.mach.ram nn.toNat).toNat +
      256 * (Cells.read s.mach.ram ((nn.toNat + 1) % 256)).toNat)
    let ax := s.mach.regs.a &&& s.mach.regs.x
    .next (memWrite (Spec.shAddress ax base s.mach.regs.y) (Spec.shValue ax base) (poll (addrIzy true nn s).2)) := by
  have hnn : nn.toNat % 256 = nn.toNat := Nat.mod_eq_of_lt nn.isLt
  have hpointer := zpPointer_eq hnn.symm s
  rw [hnn] at hpointer
  change Host.Outcome.next (shStore (fun r => r.a &&& r.x) (zpPointer nn s).1 (zpPointer nn s).2.mach.regs.y _) = _
  rw [shStore_eq, (steady_zpPointer nn s).regs, addrIzy, hpointer]

/-- Settles O36: an absolute row is `ShCompletes.absIndexed`, SHA (nn),Y is `ShCompletes.intro` with its pointer in page zero. -/
theorem highByteStoresComplete : Obligations.HighByteStoresComplete := by
  unfold Obligations.HighByteStoresComplete
  intro nn addr
  refine ⟨?shaAby, ?shaIzy, ?shxAby, ?shyAbx, ?tasAby⟩
  case shaAby | shxAby | shyAbx | tasAby => exact .absIndexed fun _ => rfl
  case shaIzy => exact .intro (exec_shaIzy nn) (steady_addrIzy true nn)

/-! ### JAM (46_unofficial.md R540, 60_exceptions.md R618, R626) -/

theorem steady_dmcFetched (b : Byte) (s : State) : Steady s (dmcFetched b s) :=
  ⟨rfl, rfl, rfl, (Kept.refl s).fetched b, ⟨rfl, rfl, rfl, rfl, rfl, rfl, rfl⟩⟩

theorem steady_dmcStall (s : State) : Steady s (dmcStall s) :=
  (((steady_endCycle s).trans (steady_endCycle _)).trans (steady_endCycle _)).trans
    ((steady_dummyRead _ _).trans (steady_dmcFetched _ _))

theorem Dmc.request_iff (d : Dmc) : d.request = true ↔ d.bufEmpty = true ∧ d.remain ≠ 0 := by
  rw [Dmc.request, Bool.and_eq_true, bne_iff_ne]

/-- A jammed CPU with no reset pending serves the DMC or idles. -/
theorem step_of_jammed {s : State} (hj : s.mach.hidden.jammed = true) (hr : s.mach.hidden.rstPending = false) :
    step s = .next (if s.mach.apu.dmc.request then dmcStall s else idle s) := by
  have hkind : stepKind s = if s.mach.apu.dmc.request then .dmcStall else .jammed := by
    simp [stepKind, hj, hr]
  rw [step, hkind]
  cases s.mach.apu.dmc.request <;> rfl

/-- Settles O37: each of the 12 is `halt`; a step of the jammed CPU is a stall or an idle cycle (`step_of_jammed`), and both leave
registers, decisions and memories alone. -/
theorem jamHaltsUntilReset : Obligations.JamHaltsUntilReset := by
  unfold Obligations.JamHaltsUntilReset
  refine ⟨?opcodes, ?steps⟩
  case opcodes =>
    intro s t
    have hhalt : t = halt s := rfl
    rw [hhalt]
    and_intros <;> rfl
  case steps =>
    intro s hj hr
    rw [step_of_jammed hj hr]
    simp only [← Dmc.request_iff]
    cases s.mach.apu.dmc.request with
    | true =>
      have h := steady_dmcStall s
      exact ⟨_, rfl, h.jammed.trans hj, h.regs, h.intDue, h.kept, h.quiet.memoryKept, dmcStall_cycles s⟩
    | false =>
      have h := steady_endCycle s
      exact ⟨_, rfl, h.jammed.trans hj, h.regs, h.intDue, h.kept, h.quiet.memoryKept, endCycle_cycles s⟩

end Sys2Proof.Machine

/-! Snapshots (65_snapshot.md). `Reads r bs a` says that a field reader gives back what a field writer wrote; it is proved once for
each kind of field and put together along the format's groups, up to the whole payload. -/

namespace Sys2Proof.Machine

/-! ### Fields -/

/-- The reader `r` reads the bytes `bs` off the front of any list as the value `a`. -/
def Reads {α : Type} (r : Reader α) (bs : List Byte) (a : α) : Prop := ∀ rest, r (bs ++ rest) = some (a, rest)

theorem length_le (k n : Nat) : (le k n).length = k := by
  induction k generalizing n with
  | zero => rfl
  | succ k ih => rw [le, List.length_cons, ih]

theorem leValue_le (k n : Nat) : leValue (le k n) = n % 256 ^ k := by
  induction k generalizing n with
  | zero => rw [le, leValue, Nat.pow_zero, Nat.mod_one]
  | succ k ih => rw [le, leValue, ih, BitVec.toNat_ofNat, Nat.pow_succ' (m := 256)]; exact Nat.mod_mul.symm

/-- A number that the field holds is read back. -/
theorem leValue_le_of_lt {k n : Nat} (h : n < 256 ^ k) : leValue (le k n) = n := by
  rw [leValue_le, Nat.mod_eq_of_lt h]

theorem vec_lt {w k : Nat} (h : w ≤ 8 * k) (v : BitVec w) : v.toNat < 256 ^ k :=
  calc v.toNat < 2 ^ w := v.isLt
    _ ≤ 2 ^ (8 * k) := Nat.pow_le_pow_right (by decide) h
    _ = 256 ^ k := Nat.pow_mul 2 8 k

namespace Reads

variable {α β : Type} {r : Reader α} {f : α → Reader β} {bs cs : List Byte} {a : α} {b : β}

theorem pure (a : α) : Reads (pure a) [] a := fun _ => rfl

theorem bind (h : Reads r bs a) (g : Reads (f a) cs b) : Reads (r >>= f) (bs ++ cs) b := fun rest => by
  show Option.bind (r (bs ++ cs ++ rest)) (fun p => f p.1 p.2) = _
  rw [List.append_assoc, h]
  exact g rest

/-- The last field of a group, and what the group makes of its fields. -/
theorem last {g : α → β} (h : Reads r bs a) (e : g a = b) : Reads (r >>= fun x => Pure.pure (g x)) bs b := by
  have := h.bind (f := fun x => Pure.pure (g x)) (.pure (g a))
  rwa [List.append_nil, e] at this

theorem nat {k n : Nat} {ok : Nat → Bool} (h : n < 256 ^ k) (hok : ok n = true) : Reads (getNat k ok) (le k n) n := by
  intro rest
  have hlen := length_le k n
  have htake : (le k n ++ rest).take k = le k n := List.take_left' hlen
  have hk : k ≤ (le k n ++ rest).length := by rw [List.length_append, hlen]; omega
  rw [getNat, htake, List.drop_left' hlen, leValue_le_of_lt h, hok, decide_eq_true hk]
  rfl

theorem vecIf {w k : Nat} {ok : BitVec w → Bool} (v : BitVec w) (hok : ok v = true) (h : w ≤ 8 * k := by decide) :
    Reads (getVecIf w k ok) (putVec k v) v := by
  have hv : BitVec.ofNat w v.toNat = v := by rw [BitVec.ofNat_toNat, BitVec.setWidth_eq]
  exact (nat (vec_lt h v) (by rw [hv, hok, decide_eq_true v.isLt]; rfl)).last hv

theorem vec {w k : Nat} (v : BitVec w) (h : w ≤ 8 * k := by decide) : Reads (getVec w k) (putVec k v) v :=
  (nat (vec_lt h v) (decide_eq_true v.isLt)).last (by rw [BitVec.ofNat_toNat, BitVec.setWidth_eq])

theorem bool (x : Bool) : Reads getBool (putBool x) x := fun _ => by cases x <;> rfl

theorem vecs {w k : Nat} (h : w ≤ 8 * k) : ∀ vs : List (BitVec w), Reads (getVecs w k vs.length) (putVecs k vs) vs
  | [] => .pure []
  | v :: vs => (vec v h).bind ((vecs h vs).last rfl)

theorem cells {w k n : Nat} {m : Cells w} (hm : Cells.wf m = true ∧ Cells.below m n = true) (h : w ≤ 8 * k := by decide) :
    Reads (getCells w k n) (putCells k n m) m := by
  have := (vecs h (Cells.toList m n)).last (Cells.ofList_toList hm.1 hm.2)
  rwa [Cells.length_toList] at this

theorem vector {w n : Nat} (v : Vector (BitVec w) n) (h : w ≤ 8 * 1 := by decide) :
    Reads (getVector w n) (putVecs 1 v.toList) v := by
  have := (vecs h v.toList).last (g := fun vs => Vector.ofFn fun i : Fin n => vs.getD i.val 0) (b := v)
    (Vector.ext fun i _ => by simp)
  rwa [Vector.length_toList] at this

end Reads

/-! ### Groups 1 to 6 -/

theorem unpackP_packP (b : Bool) (f : Flags) : unpackP (packP b f) = f := by
  obtain ⟨n, v, d, i, z, c⟩ := f
  revert b n v d i z c
  decide

theorem reads_cpu (r : Regs) {h : Hidden} (hc : h.cycles < 2 ^ 64) : Reads getCpu (putCpu r h) (r, h) := by
  unfold getCpu putCpu
  simp only [List.append_assoc]
  exact .bind (.vec r.a) <| .bind (.vec r.x) <| .bind (.vec r.y) <| .bind (.vec r.s) <| .bind (.vec r.pc) <|
    .bind (.vec _) <| .bind (.nat (by omega) rfl) <| .bind (.bool _) <| .bind (.bool _) <| .bind (.bool _) <|
    .bind (.bool _) <| .bind (.bool _) <| .last (.bool _) (by rw [unpackP_packP])


theorem reads_bus (v : Byte) {m : Memory} (hm : Memory.wf m = true ∧ Cells.below m 2048 = true) :
    Reads getBus (putBus v m) (v, m) := by
  unfold getBus putBus
  exact .bind (.vec v) <| .last (.cells hm) rfl

/-- The registers of group 3 in the place of those of `base`. -/
theorem reads_ppuRegs (base p : Ppu) : Reads (getPpuRegs base) (putPpuRegs p)
    { base with ctrl := p.ctrl, mask := p.mask, vblankFlag := p.vblankFlag, spr0Hit := p.spr0Hit
                sprOverflow := p.sprOverflow, oamaddr := p.oamaddr, v := p.v, t := p.t, fineX := p.fineX, w := p.w
                readBuffer := p.readBuffer, ioLatch := p.ioLatch } := by
  unfold getPpuRegs putPpuRegs
  simp only [List.append_assoc]
  exact .bind (.vec _) <| .bind (.vec _) <| .bind (.bool _) <| .bind (.bool _) <| .bind (.bool _) <| .bind (.vec _) <|
    .bind (.vec _) <| .bind (.vec _) <| .bind (.vec _) <| .bind (.bool _) <| .bind (.vec _) <| .last (.vec _) rfl

/-! OAM and the palette are stored with the bits and the cells that they have (61_ppu.md R653, R654). -/

/-- A byte without the bits 4-2 is as sprite memory keeps it. -/
theorem and_spriteByte : ∀ v : Byte, v &&& 0x1C = 0 → v &&& 0xE3 = v := by decide

theorem oamByte_of_plain {m : Memory} (h : oamPlain m = true) (i : Byte) :
    oamByte i (Cells.read m i.toNat) = Cells.read m i.toNat := by
  rw [oamByte_eq]
  split
  · rename_i h2
    have h0 : Cells.read m i.toNat &&& 0x1C = 0 := by
      induction m with
      | nil => exact BitVec.zero_and
      | cons e m ih =>
        obtain ⟨he, hm⟩ := Bool.and_eq_true_iff.mp h
        rw [Cells.read]
        split
        · rename_i hk
          simpa [hk, h2] using he
        · exact ih hm
    exact and_spriteByte _ h0
  · rfl

theorem oamFrom_toList {m : Memory} (hm : Memory.wf m = true ∧ Cells.below m 256 = true) (h : oamPlain m = true) :
    oamFrom (Cells.toList m 256) = m := by
  have : (List.range 256).map (fun i => oamByte (BitVec.ofNat 8 i) ((Cells.toList m 256).getD i 0)) = Cells.toList m 256 := by
    refine List.map_congr_left fun i hi => ?_
    have hi : i < 256 := List.mem_range.mp hi
    have hb : (BitVec.ofNat 8 i).toNat = i := by rw [BitVec.toNat_ofNat]; omega
    have hg : (Cells.toList m 256).getD i 0 = Cells.read m (BitVec.ofNat 8 i).toNat := by
      rw [hb]; simp [Cells.toList, hi]
    rw [hg, oamByte_of_plain h, hb]
  rw [oamFrom, this, Cells.ofList_toList hm.1 hm.2]

theorem read_palette_of_mirror {m : Cells 6} (h : palettePlain m = true) {a : Nat} (ha : palIndex a ≠ a) :
    Cells.read m a = 0 :=
  Cells.read_eq_zero fun e he hea => ha (by simpa [hea] using List.all_eq_true.mp h e he)

theorem paletteFrom_wf (vs : List (BitVec 6)) {k : Nat} {m : Cells 6} (h : Cells.wf m = true) :
    Cells.wf (paletteFrom k vs m) = true := by
  induction vs generalizing k m with
  | nil => exact h
  | cons v vs ih => exact ih (Cells.write_wf h _ _)

/-- Cells that hold what `m` holds keep it, and those written take it. -/
theorem read_paletteFrom {m m0 : Cells 6} (hm : Cells.wf m0 = true) {k n a : Nat}
    (h : Cells.read m0 a = Cells.read m a ∨ palIndex a = a ∧ k ≤ a ∧ a < k + n) :
    Cells.read (paletteFrom k ((List.range' k n).map fun i => Cells.read m (palIndex i)) m0) a = Cells.read m a := by
  induction n generalizing k m0 with
  | zero => exact h.resolve_right (by omega)
  | succ n ih =>
    refine ih (Cells.write_wf hm _ _) ?_
    rw [Cells.read_write hm]
    by_cases hk : a = palIndex k
    · rw [if_pos hk, hk]
      exact .inl rfl
    · rw [if_neg hk]
      refine h.imp_right fun ⟨h1, h2, h3⟩ => ⟨h1, ?_, by omega⟩
      have : a ≠ k := fun e => hk (by rw [← e, h1])
      omega

theorem paletteFrom_self {m : Cells 6} (hm : Cells.wf m = true ∧ Cells.below m 32 = true) (h : palettePlain m = true) :
    paletteFrom 0 ((List.range 32).map fun i => Cells.read m (palIndex i)) [] = m := by
  refine Cells.ext (paletteFrom_wf _ rfl) hm.1 fun a => ?_
  rw [List.range_eq_range']
  refine read_paletteFrom rfl ?_
  by_cases ha : palIndex a = a ∧ a < 32
  · exact .inr ⟨ha.1, Nat.zero_le _, by omega⟩
  · refine .inl ?_
    by_cases hp : palIndex a = a
    · exact (Cells.read_of_below hm.2 (by omega)).symm
    · exact (read_palette_of_mirror h hp).symm

theorem reads_ppuMems (base p : Ppu) {m : MachineState} (ok : MemoriesOk m) :
    Reads (getPpuMems base) (putPpuMems p m.vmem) ({ base with secOam := p.secOam }, m.vmem) := by
  have hoam := Reads.vecs (k := 1) (w := 8) (by decide) (Cells.toList m.vmem.oam 256)
  have hpal := Reads.vecs (k := 1) (w := 6) (by decide) ((List.range 32).map fun i => Cells.read m.vmem.palette (palIndex i))
  rw [Cells.length_toList] at hoam
  rw [List.length_map, List.length_range] at hpal
  have e : putPpuMems p m.vmem = putVecs 1 (Cells.toList m.vmem.oam 256) ++ (putVecs 1 p.secOam.toList ++
      (putVecs 1 ((List.range 32).map fun i => Cells.read m.vmem.palette (palIndex i)) ++ putCells 1 2048 m.vmem.ciram)) := by
    simp [putPpuMems, putPalette, putVecs, putCells, List.flatMap_map]
  rw [e]
  exact .bind hoam <| .bind (.vector p.secOam) <| .bind hpal <| .last (.cells ok.ciram) (by
    rw [oamFrom_toList ok.oam ok.oamBits, paletteFrom_self ok.palette ok.palCells])

theorem reads_ppuTiming (base : Ppu) {p : Ppu} (ok : PpuOk p) : Reads (getPpuTiming base) (putPpuTiming p)
    { base with scanline := p.scanline, dot := p.dot, frameOdd := p.frameOdd, warmup := p.warmup
                suppressVbl := p.suppressVbl } := by
  have hs := ok.scanline
  have hd := ok.dot
  unfold getPpuTiming putPpuTiming
  simp only [List.append_assoc]
  exact .bind (.nat (by omega) (decide_eq_true hs)) <| .bind (.nat (by omega) (decide_eq_true hd)) <| .bind (.bool _) <|
    .bind (.bool _) <| .last (.bool _) rfl

theorem reads_slot (s : SpriteSlot) : Reads getSlot (putSlot s) s := by
  unfold getSlot putSlot
  simp only [List.append_assoc]
  exact .bind (.vec _) <| .bind (.vec _) <| .bind (.vec _) <| .last (.vec _) rfl

theorem reads_slots : ∀ ss : List SpriteSlot, Reads (getSlots ss.length) (ss.flatMap putSlot) ss
  | [] => .pure []
  | s :: ss => (reads_slot s).bind ((reads_slots ss).last rfl)

theorem reads_ppuPipe (base : Ppu) {p : Ppu} (ok : PpuOk p) : Reads (getPpuPipe base) (putPpuPipe p)
    { base with ntLatch := p.ntLatch, atLatch := p.atLatch, patLoLatch := p.patLoLatch, patHiLatch := p.patHiLatch
                bgPatLo := p.bgPatLo, bgPatHi := p.bgPatHi, bgAtLo := p.bgAtLo, bgAtHi := p.bgAtHi
                sprCountNext := p.sprCountNext, spr0Next := p.spr0Next, slots := p.slots
                slot0IsSpr0 := p.slot0IsSpr0 } := by
  have hn := ok.sprCountNext
  have hs := reads_slots p.slots.toList
  have he : Vector.ofFn (fun i : Fin 8 => p.slots.toList.getD i.val { patLo := 0, patHi := 0, attr := 0, x := 0 }) = p.slots :=
    Vector.ext fun i _ => by simp
  rw [Vector.length_toList] at hs
  unfold getPpuPipe putPpuPipe
  simp only [List.append_assoc]
  exact .bind (.vec _) <| .bind (.vec _) <| .bind (.vec _) <| .bind (.vec _) <| .bind (.vec _) <| .bind (.vec _) <|
    .bind (.vec _) <| .bind (.vec _) <| .bind (.nat (by omega) (decide_eq_true hn)) <| .bind (.bool _) <| .bind hs <|
    .last (.bool _) (by rw [he])

/-- Groups 3 to 7. -/
def putPpu (p : Ppu) (v : VideoMem) : List Byte :=
  putPpuRegs p ++ (putPpuMems p v ++ (putPpuTiming p ++ (putPpuPipe p ++ putCells 2 61440 p.fbWork)))

theorem reads_ppu (base : Ppu) {m : MachineState} (ok : MemoriesOk m) (hp : PpuOk m.ppu) :
    Reads (getPpu base) (putPpu m.ppu m.vmem) ({ m.ppu with sprLatch := base.sprLatch }, m.vmem) := by
  unfold getPpu putPpu
  exact .bind (reads_ppuRegs base m.ppu) <| .bind (reads_ppuMems _ m.ppu ok) <| .bind (reads_ppuTiming _ hp) <|
    .bind (reads_ppuPipe _ hp) <| .last (.cells ok.fbWork) rfl

/-! ### Groups 8 to 16 -/

theorem reads_envelope (e : Envelope) : Reads getEnvelope (putEnvelope e) e := by
  unfold getEnvelope putEnvelope
  simp only [List.append_assoc]
  exact .bind (.bool _) <| .bind (.vec _) <| .last (.vec _) rfl

theorem reads_pulse (p : Pulse) : Reads getPulse (putPulse p) p := by
  unfold getPulse putPulse
  simp only [List.append_assoc]
  exact .bind (.vec _) <| .bind (.bool _) <| .bind (.bool _) <| .bind (.vec _) <| .bind (.bool _) <| .bind (.vec _) <|
    .bind (.bool _) <| .bind (.vec _) <| .bind (.vec _) <| .bind (.bool _) <| .bind (.vec _) <| .bind (.vec _) <|
    .bind (.vec _) <| .bind (.vec _) <| .last (reads_envelope _) rfl

theorem reads_triangle (t : Triangle) : Reads getTriangle (putTriangle t) t := by
  unfold getTriangle putTriangle
  simp only [List.append_assoc]
  exact .bind (.bool _) <| .bind (.vec _) <| .bind (.vec _) <| .bind (.bool _) <| .bind (.vec _) <| .bind (.vec _) <|
    .bind (.vec _) <| .last (.vec _) rfl

theorem reads_noise {n : Noise} (ht : n.timer ≤ 2033) (hl : n.lfsr ≠ 0) : Reads getNoise (putNoise n) n := by
  unfold getNoise putNoise
  simp only [List.append_assoc]
  exact .bind (.bool _) <| .bind (.bool _) <| .bind (.vec _) <| .bind (.bool _) <| .bind (.vec _) <|
    .bind (.vecIf _ (decide_eq_true ht)) <| .bind (.vecIf _ (bne_iff_ne.mpr hl)) <| .bind (.vec _) <|
    .last (reads_envelope _) rfl

/-- The DMC fields of group 12. -/
def putDmcUnit (d : Dmc) : List Byte :=
  putBool d.irqEn ++ (putBool d.loop ++ (putVec 1 d.rateIdx ++ (putVec 1 d.level ++ (putVec 2 d.startAddr ++
    (putVec 2 d.length ++ (putVec 2 d.addr ++ (putVec 2 d.remain ++ (putVec 1 d.buffer ++ (putBool d.bufEmpty ++
    (putVec 1 d.shift ++ (le 1 d.bits ++ (putBool d.silence ++ (putVec 2 d.timer ++ putBool d.irq)))))))))))))

/-- The frame counter fields of group 12. -/
def putFrameCounter (f : FrameCounter) : List Byte :=
  putBool f.mode ++ (putBool f.inhibit ++ (le 2 f.cycle ++ (le 1 f.resetDelay ++ putBool f.irq)))

theorem reads_dmc {a : Apu} (ok : ApuOk a) : Reads getDmc (putDmcUnit a.dmc) a.dmc := by
  have hstart : (0xC000 ≤ a.dmc.startAddr && a.dmc.startAddr &&& 63 == 0) = true := by
    rw [decide_eq_true ok.dmcStart.1, ok.dmcStart.2]; rfl
  have hlen : (1 ≤ a.dmc.length && a.dmc.length ≤ 4081) = true := by
    rw [decide_eq_true ok.dmcLength.1, decide_eq_true ok.dmcLength.2]; rfl
  have hbits : (1 ≤ a.dmc.bits && a.dmc.bits ≤ 8) = true := by
    rw [decide_eq_true ok.dmcBits.1, decide_eq_true ok.dmcBits.2]; rfl
  have hb := ok.dmcBits.2
  unfold getDmc putDmcUnit
  exact .bind (.bool _) <| .bind (.bool _) <| .bind (.vec _) <| .bind (.vec _) <| .bind (.vecIf _ hstart) <|
    .bind (.vecIf _ hlen) <| .bind (.vecIf _ (decide_eq_true ok.dmcAddr)) <|
    .bind (.vecIf _ (decide_eq_true ok.dmcRemain)) <| .bind (.vec _) <| .bind (.bool _) <| .bind (.vec _) <|
    .bind (.nat (by omega) hbits) <| .bind (.bool _) <| .bind (.vecIf _ (decide_eq_true ok.dmcTimer)) <|
    .last (.bool _) rfl

theorem reads_frameCounter {a : Apu} (ok : ApuOk a) : Reads getFrameCounter (putFrameCounter a.fc) a.fc := by
  have hc := ok.fcCycle
  have hd := ok.resetDelay
  unfold getFrameCounter putFrameCounter
  exact .bind (.bool _) <| .bind (.bool _) <| .bind (.nat (by omega) (decide_eq_true hc)) <|
    .bind (.nat (by omega) (decide_eq_true hd)) <| .last (.bool _) rfl

/-- Groups 8 to 12. -/
def putApu (a : Apu) : List Byte :=
  putPulse a.p1 ++ (putPulse a.p2 ++ (putTriangle a.tri ++ (putNoise a.noi ++ (putVec 1 (enableBits a) ++
    (putDmcUnit a.dmc ++ (putFrameCounter a.fc ++ le 4 a.rsAcc))))))

theorem enableBits_getLsbD (a : Apu) : (enableBits a).getLsbD 0 = a.enP1 ∧ (enableBits a).getLsbD 1 = a.enP2 ∧
    (enableBits a).getLsbD 2 = a.enTri ∧ (enableBits a).getLsbD 3 = a.enNoi := by
  unfold enableBits
  generalize a.enP1 = b0, a.enP2 = b1, a.enTri = b2, a.enNoi = b3
  revert b0 b1 b2 b3
  decide

theorem reads_apu {a : Apu} (ok : ApuOk a) : Reads getApu (putApu a) a := by
  have hr : a.rsAcc < 19687500 := ok.rsAcc
  obtain ⟨h1, h2, h3, h4⟩ := enableBits_getLsbD a
  unfold getApu putApu
  exact .bind (reads_pulse _) <| .bind (reads_pulse _) <| .bind (reads_triangle _) <|
    .bind (reads_noise ok.noiTimer ok.lfsr) <| .bind (.vec _) <| .bind (reads_dmc ok) <| .bind (reads_frameCounter ok) <|
    .last (.nat (by omega) (decide_eq_true hr)) (by rw [h1, h2, h3, h4])

/-- The cartridge RAMs that a load leaves: those that the image does not have stay as they were in `base`. -/
def cartOver (img : Image) (base c : Cart) : Cart :=
  { c with chrRam := if img.chrCount = 0 then c.chrRam else base.chrRam
           cartVram := if img.fourScreen = true then c.cartVram else base.cartVram }

section
variable {β : Type} {n : Nat} {c : Prop} [Decidable c] {m base : Memory} {bs : List Byte} {b : β}

/-- A conditional RAM, in the form in which `do` joins it to what follows. -/
theorem reads_ram_bind {k : Memory → Reader β} (hm : Memory.wf m = true ∧ Cells.below m n = true)
    (g : Reads (k (if c then m else base)) bs b) :
    Reads (if c then getCells 8 1 n >>= k else pure base >>= k) ((if c then putCells 1 n m else []) ++ bs) b := by
  by_cases hc : c
  · simp only [if_pos hc] at g ⊢; exact .bind (.cells hm) g
  · simp only [if_neg hc] at g ⊢; exact .bind (.pure base) g

theorem reads_ram_last {f : Memory → β} (hm : Memory.wf m = true ∧ Cells.below m n = true)
    (e : f (if c then m else base) = b) :
    Reads (if c then getCells 8 1 n >>= fun x => pure (f x) else pure base >>= fun x => pure (f x))
      (if c then putCells 1 n m else []) b := by
  have := reads_ram_bind (c := c) (base := base) (k := fun x => pure (f x)) hm (.pure _)
  rwa [List.append_nil, e] at this

end

theorem reads_cart (img : Image) (base : Cart) {m : MachineState} (ok : MemoriesOk m) :
    Reads (getCart img base) (putCart img m.cart) (cartOver img base m.cart) := by
  unfold getCart putCart
  simp only [List.append_assoc]
  exact .bind (.vecIf _ BEq.rfl) <| .bind (.cells ok.prgRam) <| reads_ram_bind ok.chrRam <| reads_ram_last ok.cartVram rfl

theorem reads_mmc1 {r : Mmc1} (h : r.count ≤ 4) : Reads getMmc1 (putMapper (.mmc1 r)) r := by
  unfold getMmc1 putMapper
  simp only [List.append_assoc]
  exact .bind (.vec _) <| .bind (.nat (by omega) (decide_eq_true h)) <| .bind (.vec _) <| .bind (.vec _) <|
    .bind (.vec _) <| .bind (.vec _) <| .last (.vec _) rfl

theorem reads_mmc3 (r : Mmc3) : Reads getMmc3 (putMapper (.mmc3 r)) r := by
  unfold getMmc3 putMapper
  simp only [List.append_assoc]
  exact .bind (.vec _) <| .bind (.bool _) <| .bind (.bool _) <| .bind (.vector _) <| .bind (.bool _) <|
    .bind (.bool _) <| .bind (.bool _) <| .bind (.vec _) <| .bind (.vec _) <| .bind (.bool _) <| .bind (.bool _) <|
    .bind (.bool _) <| .last (.vec _) rfl

theorem reads_mapper {img : Image} {mp : Mapper} (h : SameVariant (mapperPowerOn img) mp) (ok : MapperOk mp) :
    Reads (getMapper img) (putMapper mp) mp := by
  unfold getMapper
  generalize mapperPowerOn img = p at h
  cases p with
  | nrom => cases mp with
    | nrom => exact .pure _
    | _ => exact h.elim
  | mmc1 _ => cases mp with
    | mmc1 r => exact (reads_mmc1 ok).last rfl
    | _ => exact h.elim
  | uxrom _ => cases mp with
    | uxrom b => exact (Reads.vec b).last rfl
    | _ => exact h.elim
  | cnrom _ => cases mp with
    | cnrom c => exact (Reads.vec c).last rfl
    | _ => exact h.elim
  | mmc3 _ => cases mp with
    | mmc3 r => exact (reads_mmc3 r).last rfl
    | _ => exact h.elim
  | axrom _ => cases mp with
    | axrom r => exact (Reads.vec r).last rfl
    | _ => exact h.elim

theorem reads_ports (p : Ports) (n : BitVec 32) (done : Bool) : Reads getPorts (putPorts p n done) (p, n, done) := by
  unfold getPorts putPorts
  simp only [List.append_assoc]
  exact .bind (.vec _) <| .bind (.vec _) <| .bind (.bool _) <| .bind (.vec _) <| .bind (.vec _) <| .bind (.vec _) <|
    .last (.bool _) rfl

/-! ### The whole payload -/

theorem putDmc_eq (a : Apu) : putDmc a =
    putVec 1 (enableBits a) ++ (putDmcUnit a.dmc ++ (putFrameCounter a.fc ++ le 4 a.rsAcc)) := by
  unfold putDmc putDmcUnit putFrameCounter
  simp only [List.append_assoc]

theorem payload_eq (img : Image) (m : MachineState) : payload img m =
    putCpu m.regs m.hidden ++ (putBus m.openBus m.ram ++ (putPpu m.ppu m.vmem ++ (putApu m.apu ++
      (putCart img m.cart ++ (putMapper m.mapper ++ putPorts m.ports m.frameCount m.frameDone))))) := by
  simp only [payload, putPpu, putApu, putDmc_eq, List.append_assoc]

/-! The settled latch does not depend on the RAMs that the image lacks. -/

theorem mirroring_page_lt_two {img : Image} (h : img.fourScreen = false) (mp : Mapper) {n : Nat} (hn : n < 4) :
    (mapperMirroring (some img) mp).page n < 2 := by
  have hp : ∀ m : Mirroring, m ≠ .fourScreen → m.page n < 2 := by
    intro m hm
    cases m with
    | fourScreen => exact absurd rfl hm
    | _ => simp only [Mirroring.page]; omega
  refine hp _ ?_
  unfold mapperMirroring
  simp only [h, Bool.false_eq_true, if_false]
  cases mp with
  | mmc1 r => dsimp only; split <;> simp
  | _ => dsimp only; split <;> simp

theorem ppuPeek_cartOver (img : Image) (base c : Cart) (v : VideoMem) (n : Nat) (mp : Mapper) (mask : Byte) (a : PpuAddr) :
    ppuPeek { image := some img, cart := cartOver img base c, vmem := v, cycles := n } mp mask a =
      ppuPeek { image := some img, cart := c, vmem := v, cycles := n } mp mask a := by
  have hchr : chrRead (some img) (cartOver img base c) mp a = chrRead (some img) c mp a := by
    unfold chrRead cartOver
    by_cases h : img.chrCount = 0 <;> simp only [h, if_true, if_false]
  have hnt : ntRead { image := some img, cart := cartOver img base c, vmem := v, cycles := n } mp a =
      ntRead { image := some img, cart := c, vmem := v, cycles := n } mp a := by
    by_cases h : img.fourScreen = true
    · have : (cartOver img base c).cartVram = c.cartVram := if_pos h
      simp only [ntRead, this]
    · have hp := mirroring_page_lt_two (Bool.eq_false_iff.mpr h) mp (n := a.toNat / 1024 % 4) (Nat.mod_lt _ (by decide))
      simp only [ntRead, ntPage, hp, if_true]
  simp only [ppuPeek, hchr, hnt]

theorem settledLatch_cartOver (img : Image) (base c : Cart) (v : VideoMem) (n : Nat) (mp : Mapper) (p : Ppu)
    (l : Option SpriteLatch) :
    settledLatch { image := some img, cart := cartOver img base c, vmem := v, cycles := n } mp { p with sprLatch := l } =
      settledLatch { image := some img, cart := c, vmem := v, cycles := n } mp p := by
  unfold settledLatch
  simp only [ppuPeek_cartOver]
  rfl

/-- The machine `m` over `base`: what a snapshot does not hold stays. -/
def loadedOver (img : Image) (base m : MachineState) : MachineState :=
  { m with dmaReq := base.dmaReq, dmaPage := base.dmaPage, cart := cartOver img base.cart m.cart }

theorem reads_machine {s : State} {img : Image} (hi : s.image = some img) (inv : s.Inv) (fits : SnapshotFits img s.mach)
    (base : MachineState) :
    Reads (getMachine img base) (payload img s.mach) (loadedOver img base s.mach) := by
  have hl : settledLatch { image := some img, cart := cartOver img base.cart s.mach.cart, vmem := s.mach.vmem
                           cycles := s.mach.hidden.cycles } s.mach.mapper { s.mach.ppu with sprLatch := base.ppu.sprLatch } =
      s.mach.ppu.sprLatch := by
    rw [settledLatch_cartOver, inv.latch, State.settledLatch, State.ppuWorld, hi]
  rw [payload_eq]
  unfold getMachine
  exact .bind (reads_cpu _ fits.cycles) <| .bind (reads_bus _ inv.memories.ram) <|
    .bind (reads_ppu _ inv.memories inv.ppu) <| .bind (reads_apu inv.apu) <| .bind (reads_cart img _ inv.memories) <|
    .bind (reads_mapper fits.mapper inv.mapper) <| .last (reads_ports _ _ _) (by dsimp only; rw [hl]; rfl)

/-! ### The blob -/

theorem length_putVec {w : Nat} (k : Nat) (v : BitVec w) : (putVec k v).length = k := length_le _ _

theorem length_putVecs {w : Nat} (k : Nat) (vs : List (BitVec w)) : (putVecs k vs).length = vs.length * k := by
  induction vs with
  | nil => exact (Nat.zero_mul k).symm
  | cons v vs ih =>
    rw [putVecs, List.flatMap_cons, List.length_append, length_putVec, List.length_cons, Nat.succ_mul, Nat.add_comm]
    exact congrArg (· + k) ih

theorem length_putCells {w : Nat} (k n : Nat) (m : Cells w) : (putCells k n m).length = n * k := by
  have := length_putVecs k (Cells.toList m n)
  rwa [Cells.length_toList] at this

theorem length_putPalette (m : Cells 6) : (putPalette m).length = 32 := by
  simp [putPalette, List.length_flatMap, length_putVec]

theorem length_slots (ss : List SpriteSlot) : (ss.flatMap putSlot).length = 4 * ss.length := by
  induction ss with
  | nil => rfl
  | cons s ss ih =>
    simp only [List.flatMap_cons, List.length_append, List.length_cons, ih, putSlot, length_putVec]
    omega

theorem length_putMapper (mp : Mapper) : (putMapper mp).length ≤ 27 := by
  cases mp <;> simp [putMapper, length_putVec, length_putVecs, length_le, putBool]

theorem length_putCart (img : Image) (c : Cart) : (putCart img c).length ≤ 20000 := by
  unfold putCart
  simp only [List.length_append, length_putVec, length_putCells]
  split <;> split <;> simp only [length_putCells, List.length_nil] <;> omega

theorem length_putDmc (a : Apu) : (putDmc a).length = 31 := by
  unfold putDmc
  simp only [List.length_append, length_putVec, length_le, putBool, List.length_singleton,
    Nat.reduceAdd]

theorem length_payload_lt (img : Image) (m : MachineState) : (payload img m).length < 2 ^ 32 := by
  have h1 := length_putMapper m.mapper
  have h2 := length_putCart img m.cart
  simp only [payload, putCpu, putBus, putPpuRegs, putPpuMems, putPpuTiming, putPpuPipe, putPulse, putEnvelope, putTriangle,
    putNoise, length_putDmc, putPorts, putBool, List.length_append, length_putVec, length_putVecs, length_putCells, length_putPalette,
    length_slots, length_le, List.length_singleton, Vector.length_toList]
  omega

theorem fieldAt_le {n k o : Nat} {as : List Byte} (cs : List Byte) (ho : as.length = o) (h : n < 256 ^ k) :
    fieldAt (as ++ (le k n ++ cs)) o k = n := by
  rw [fieldAt, List.drop_left' ho, List.take_left' (length_le k n), leValue_le_of_lt h]

/-- The header fields of a blob over `body`, as the reader finds them. -/
theorem blobHeader_fields (img : Image) (body : List Byte) :
    (blobHeader img body ++ body).take 4 = [0x4E, 0x43, 0x53, 0x53] ∧
    fieldAt (blobHeader img body ++ body) 4 2 = 1 ∧ fieldAt (blobHeader img body ++ body) 6 2 = 0 ∧
    fieldAt (blobHeader img body ++ body) 8 4 = (compatTag img).toNat ∧
    (body.length < 2 ^ 32 → fieldAt (blobHeader img body ++ body) 12 4 = body.length) ∧
    fieldAt (blobHeader img body ++ body) 16 4 = (crc32 body).toNat := by
  have tag : (putVec 4 (compatTag img)).length = 4 := length_putVec _ _
  have start : ([0x4E, 0x43, 0x53, 0x53] ++ le 2 1 ++ le 2 0).length = 8 := rfl
  have h8 := fieldAt_le (le 4 body.length ++ putVec 4 (crc32 body) ++ body) start (vec_lt (k := 4) (by decide) (compatTag img))
  have h12 := fieldAt_le (n := body.length) (k := 4) (putVec 4 (crc32 body) ++ body)
    (by rw [List.length_append, start, tag] : ([0x4E, 0x43, 0x53, 0x53] ++ le 2 1 ++ le 2 0 ++ putVec 4 (compatTag img)).length = 12)
  have h16 := fieldAt_le body
    (by rw [List.length_append, List.length_append, start, tag, length_le] : ([0x4E, 0x43, 0x53, 0x53] ++ le 2 1 ++ le 2 0 ++
      putVec 4 (compatTag img) ++ le 4 body.length).length = 16) (vec_lt (k := 4) (by decide) (crc32 body))
  unfold blobHeader putVec
  unfold putVec at h8 h12 h16
  simp only [List.append_assoc] at h8 h12 h16 ⊢
  exact ⟨rfl, rfl, rfl, h8, h12, h16⟩

theorem length_blobHeader (img : Image) (body : List Byte) : (blobHeader img body).length = 20 := by
  simp only [blobHeader, List.length_append, length_putVec, length_le]
  rfl

theorem headerOk_serialize (img : Image) (m : MachineState) : headerOk img (serialize img m) = true := by
  obtain ⟨magic, version, reserved, tag, len, -⟩ := blobHeader_fields img (payload img m)
  have hl : (serialize img m).length = (payload img m).length + 20 := by
    rw [serialize, List.length_append, length_blobHeader, Nat.add_comm]
  unfold headerOk
  rw [hl]
  unfold serialize
  rw [magic, version, reserved, tag, len (length_payload_lt img m)]
  simp

theorem readBody_serialize {s : State} {img : Image} (hi : s.image = some img) (inv : s.Inv)
    (fits : SnapshotFits img s.mach) (base : MachineState) :
    readBody img base (serialize img s.mach) = some (loadedOver img base s.mach) := by
  obtain ⟨-, -, -, -, -, crc⟩ := blobHeader_fields img (payload img s.mach)
  have hbody : (serialize img s.mach).drop 20 = payload img s.mach := List.drop_left' (length_blobHeader _ _)
  have hread := reads_machine hi inv fits base []
  rw [List.append_nil] at hread
  simp only [readBody, hbody]
  rw [hread, serialize, crc, if_pos (beq_self_eq_true _)]

/-- Settles O56: every field reader gives back what the field writer wrote (`Reads`), so the payload reads as the saved
machine, and the header over it is valid. -/
theorem saveThenLoadRestoresTheMachine : Obligations.SaveThenLoadRestoresTheMachine := by
  unfold Obligations.SaveThenLoadRestoresTheMachine
  intro s s' img hi hlive inv fits hi' hlive'
  refine ⟨serialize img s.mach, by rw [State.blob, hi]; exact if_pos hlive, ?_⟩
  have hd : deserialize s'.image s'.mach (serialize img s.mach) = .commit (loadedOver img s'.mach s.mach) := by
    rw [hi']
    simp only [deserialize, headerOk_serialize, if_true, readBody_serialize hi inv fits]
  have hn : s'.host.control ≠ .notInitialised := fun h => by rw [h] at hlive'; exact absurd hlive' (by decide)
  have hc : call (.loadStateFromBuffer (serialize img s.mach)) s' = loadIf (some (serialize img s.mach)) s' := if_neg hn
  rw [hc, loadIf, if_pos hlive', loadBlob, hd]
  rfl

end Sys2Proof.Machine

/-! Exceptions and the step (60_exceptions.md, 70_reset_and_hazards.md). -/

namespace Sys2Proof.Machine

/-! ### The scheduler, the instruction step and the reset state -/

/-- Settles O5. -/
theorem stepRunsTheDecodedInstruction : Obligations.StepRunsTheDecodedInstruction := by
  unfold Obligations.StepRunsTheDecodedInstruction
  intro s i rest hk hd
  exact ⟨step_eq_finish_exec hk hd, fun t => rfl⟩

/-- Settles O9. -/
theorem resetMeetsTheInvariant : Obligations.ResetMeetsTheInvariant where
  memories := by constructor <;> decide
  ppu := by constructor <;> decide
  apu := by constructor <;> decide
  mapper := trivial
  noDma := rfl
  latch := rfl

theorem step_eq (s : State) : step s =
    if s.mach.hidden.rstPending then .next (resetSequence s)
    else if s.mach.apu.dmc.request then .next (dmcStall s)
    else if s.mach.hidden.jammed then .next (endCycle s)
    else if s.mach.hidden.intDue then .next (interruptSequence s)
    else instructionStep s := by
  unfold step stepKind
  cases s.mach.hidden.rstPending with
  | true => rfl
  | false => cases s.mach.apu.dmc.request with
    | true => rfl
    | false => cases s.mach.hidden.jammed with
      | true => rfl
      | false => cases s.mach.hidden.intDue <;> rfl

/-- Settles O11: the scheduler's conditions in their order (`step_eq`); the sampling and the poll are `endCycle` and `poll`
written out. -/
theorem schedulerSamplingAndPoll : Obligations.SchedulerSamplingAndPoll := by
  unfold Obligations.SchedulerSamplingAndPoll
  intro s
  refine ⟨?_, rfl, rfl⟩
  rw [step_eq]
  simp only [Dmc.request_iff]

/-! ### Interrupts (60_exceptions.md R605) -/

/-- Settles O38: two reads at PC, then the handler is entered as by BRK, with B clear in the pushed image. -/
theorem interruptEntersTheHandler : Obligations.InterruptEntersTheHandler := by
  unfold Obligations.InterruptEntersTheHandler
  intro s m hk r s4 vec s6
  let s2 := dummyRead r.pc (dummyRead r.pc s)
  let s5 := push (Spec.image false r.p) s4
  have h2 : Steady s s2 := (steady_dummyRead r.pc s).trans (steady_dummyRead r.pc _)
  have hwf : Memory.wf s2.mach.ram = true := by rw [h2.quiet.ram]; exact m.ram.1
  have hseq : interruptSequence s = vectorFetch vec s5 := by
    have := enterHandler_eq false hwf
    rw [h2.regs] at this
    rw [interruptSequence, dummyRead_regs]
    exact this
  have hp := push_image_pushes false hwf
  rw [h2.regs] at hp
  obtain ⟨hkept, hpushed⟩ := hp.after h2.quiet h2.kept h2.regs
  obtain ⟨hvec, hvec1⟩ : 0x4020 ≤ vec ∧ 0x4020 ≤ vec + 1 := chooseVector_cartridge s4
  have hv := vectorFetch_readCycles vec s5
  refine ⟨vectorFetch vec s5, ?_, ?_, hpushed.quiet hv.quiet, vectorFetch_nmiPending vec s5, vectorFetch_intDue vec s5,
    hv.jammed.trans (hp.jammed.trans h2.jammed), ?_, hkept.trans hv.kept⟩
  · rw [step, hk, ← hseq]
  · have hword := vectorWord_congr (hpushed.high vec (by bv_omega)) (hpushed.high (vec + 1) (by bv_omega))
    rw [vectorFetch_regs hvec hvec1, push_openBus, hword, hp.regs, h2.regs]
    rfl
  · rw [← hseq, interruptSequence_cycles]

/-! ### Reset (60_exceptions.md R608) -/

theorem resetStackCycle_readCycles {n : Nat} {s t : State} (h : ReadCycles n s t) :
    ReadCycles (n + 1) s (resetStackCycle t) := (h.read _).regs _

/-- What a stack cycle of the reset sequence leaves on the bus: the byte that it has read. -/
theorem resetStackCycle_openBus (s : State) :
    (resetStackCycle s).mach.openBus = Cells.read s.mach.ram (256 + s.mach.regs.s.toNat) := by
  have hs := s.mach.regs.s.isLt
  have hlt := stackAddr_lt s
  rw [resetStackCycle, updateRegs_openBus, dummyRead_openBus (by bv_omega), peek_workRam hlt, stackAddr_toNat,
    Nat.mod_eq_of_lt (by omega)]

theorem resetStackCycle_regs (s : State) :
    (resetStackCycle s).mach.regs = { s.mach.regs with s := s.mach.regs.s - 1 } := by
  rw [resetStackCycle, updateRegs_regs, dummyRead_regs]

/-- The two reads of the reset vector, I set between them. -/
theorem word_of_resetVector (s : State) :
    word (peek (resetVector + 1) (updateFlags (fun f => { f with i := true }) (dummyRead resetVector s))) (peek resetVector s) =
      vectorWord resetVector s.mach.openBus s := by
  have hbus := dummyRead_openBus (a := resetVector) (by decide) s
  have hq := (quiet_dummyRead resetVector s).trans (quiet_updateRegs (fun r => { r with p := { r.p with i := true } }) _)
  exact word_of_vector (by decide) (by decide) hbus (hq.memByte _)

/-- Settles O39: five cycles that store nothing, of which the last reads the stack page, and the two reads of the vector
(`word_of_vector`). -/
theorem resetSequenceStartsAtTheVector : Obligations.ResetSequenceStartsAtTheVector := by
  unfold Obligations.ResetSequenceStartsAtTheVector
  intro s hr r
  let s2 := dummyRead r.pc (dummyRead r.pc s)
  let s4 := resetStackCycle (resetStackCycle s2)
  let s5 := resetStackCycle s4
  let s6 := updateFlags (fun f => { f with i := true }) (dummyRead resetVector s5)
  let u := setPc (word (peek (resetVector + 1) s6) (peek resetVector s5)) (dummyRead (resetVector + 1) s6)
  have h5 : ReadCycles 5 s s5 := resetStackCycle_readCycles (resetStackCycle_readCycles (resetStackCycle_readCycles
    (((ReadCycles.refl s).read r.pc).read r.pc)))
  have h4 : ReadCycles 4 s s4 := resetStackCycle_readCycles (resetStackCycle_readCycles
    (((ReadCycles.refl s).read r.pc).read r.pc))
  have h6 : ReadCycles 6 s s6 := (h5.read _).updateFlags _
  have hu : ReadCycles 7 s u := (h6.read _).setPc _
  have hseq : resetSequence s = updateHidden (fun h => { h with rstPending := false, jammed := false, intDue := false }) u := by
    rw [resetSequence, dummyRead_regs]
    rfl
  have hregs4 : s4.mach.regs = { r with s := r.s - 1 - 1 } := by
    simp only [s4, s2, resetStackCycle_regs, dummyRead_regs]
    rfl
  have hregs5 : s5.mach.regs = { r with s := r.s - 3 } := by
    simp only [s5, resetStackCycle_regs, hregs4, BitVec.sub_sub]
    rfl
  have hbus5 : s5.mach.openBus = Cells.read s.mach.ram (256 + (r.s.toNat + 254) % 256) := by
    have hs : (r.s - 1 - 1).toNat = (r.s.toNat + 254) % 256 := by bv_omega
    rw [resetStackCycle_openBus, hregs4, hs, h4.quiet.ram]
  have hword : word (peek (resetVector + 1) s6) (peek resetVector s5) =
      vectorWord resetVector (Cells.read s.mach.ram (256 + (r.s.toNat + 254) % 256)) s := by
    rw [← hbus5, ← vectorWord_congr (h5.quiet.memByte resetVector) (h5.quiet.memByte _)]
    exact word_of_resetVector s5
  have hstep : step s = .next (resetSequence s) := by rw [step, stepKind_eq_reset.mpr hr]
  refine ⟨_, hstep, ?_, rfl, rfl, rfl, resetSequence_cycles s, ?_, ?_⟩
  · rw [hseq, updateHidden_regs, setPc_regs, dummyRead_regs, updateFlags_regs, dummyRead_regs, hregs5, hword]
    rfl
  · rw [hseq]
    exact (hu.quiet.trans (quiet_updateHidden _ _)).memoryKept
  · rw [hseq]
    exact hu.kept.hidden (fun h => { h with rstPending := true, jammed := false, intDue := false })
      (hu.kept.rstPending.trans hr).symm

/-! ### The DMC stall (62_apu.md R790) -/

/-- A fetched sample byte, in numbers (62_apu.md R790, R792). -/
theorem Dmc.fetched_fields (d : Dmc) (b : Byte) : let ends := d.remain.toNat = 1
    (d.fetched b).buffer = b ∧ (d.fetched b).bufEmpty = false ∧
    (d.fetched b).addr = (if ends ∧ d.loop = true then d.startAddr
      else if d.addr.toNat = 0xFFFF then 0x8000 else d.addr + 1) ∧
    (d.fetched b).remain = (if ends ∧ d.loop = true then d.length else d.remain - 1) ∧
    (d.fetched b).irq = (d.irq || decide (ends ∧ d.loop = false ∧ d.irqEn = true)) := by
  intro ends
  have hends : d.remain - 1 = 0 ↔ ends := by
    show _ ↔ d.remain.toNat = 1
    bv_omega
  have haddr : d.addr = 0xFFFF ↔ d.addr.toNat = 0xFFFF := by bv_omega
  unfold Dmc.fetched
  simp only [hends, haddr]
  by_cases he : ends
  · cases d.loop <;> cases d.irqEn <;> simp [he, Dmc.restart]
  · simp [he]

/-- What the sample reader of the DMC keeps: all that the output unit and the timer leave alone (62_apu.md R790, R791). -/
structure SameReader (d e : Dmc) : Prop where
  addr      : e.addr = d.addr
  remain    : e.remain = d.remain
  startAddr : e.startAddr = d.startAddr
  length    : e.length = d.length
  loop      : e.loop = d.loop
  irqEn     : e.irqEn = d.irqEn
  irq       : e.irq = d.irq

theorem SameReader.refl (d : Dmc) : SameReader d d := ⟨rfl, rfl, rfl, rfl, rfl, rfl, rfl⟩

theorem SameReader.trans {d e f : Dmc} (h : SameReader d e) (g : SameReader e f) : SameReader d f :=
  ⟨g.addr.trans h.addr, g.remain.trans h.remain, g.startAddr.trans h.startAddr, g.length.trans h.length,
    g.loop.trans h.loop, g.irqEn.trans h.irqEn, g.irq.trans h.irq⟩

theorem sameReader_clock (d : Dmc) : SameReader d d.clock := by
  unfold Dmc.clock
  split
  · unfold Dmc.output
    dsimp only
    split
    · split <;> exact ⟨rfl, rfl, rfl, rfl, rfl, rfl, rfl⟩
    · exact ⟨rfl, rfl, rfl, rfl, rfl, rfl, rfl⟩
  · exact ⟨rfl, rfl, rfl, rfl, rfl, rfl, rfl⟩

theorem sequencer_dmc (a : Apu) : a.sequencer.dmc = a.dmc := by
  unfold Apu.sequencer
  dsimp only
  split
  · split <;> rfl
  · unfold Apu.sequencerAction
    split <;> rfl

theorem sameReader_endCycle (s : State) : SameReader s.mach.apu.dmc (endCycle s).mach.apu.dmc := by
  have h : (endCycle s).mach.apu.dmc = if s.mach.hidden.cycles % 2 = 1 then s.mach.apu.dmc.clock else s.mach.apu.dmc := by
    rw [← sequencer_dmc s.mach.apu]
    rfl
  rw [h]
  split
  · exact sameReader_clock _
  · exact .refl _

theorem sameReader_dummyRead (a : Word) (s : State) : SameReader s.mach.apu.dmc (dummyRead a s).mach.apu.dmc := by
  have h : SameReader s.mach.apu.dmc (busRead a s).2.mach.apu.dmc := by
    unfold busRead
    cases region a <;> exact .refl _
  exact h.trans (sameReader_endCycle _)

/-- Settles O50: three idle cycles and a read keep everything but the clocks and the sample reader with them, and the byte read is
the sample's next (`Dmc.fetched_fields`). -/
theorem dmcStallFetchesTheSample : Obligations.DmcStallFetchesTheSample := by
  unfold Obligations.DmcStallFetchesTheSample
  intro s hr hempty hremain d ends
  have hstep : step s = .next (dmcStall s) := by
    rw [step_eq, hr, d.request_iff.mpr ⟨hempty, hremain⟩]
    rfl
  have h := steady_dmcStall s
  let s3 := endCycle (endCycle (endCycle s))
  have hq3 : Quiet s s3 := ((quiet_endCycle s).trans (quiet_endCycle _)).trans (quiet_endCycle _)
  have h3 : SameReader d s3.mach.apu.dmc :=
    ((sameReader_endCycle s).trans (sameReader_endCycle _)).trans (sameReader_endCycle _)
  have h4 := h3.trans (sameReader_dummyRead d.addr s3)
  have hdmc : (dmcStall s).mach.apu.dmc = (dummyRead d.addr s3).mach.apu.dmc.fetched (peek d.addr s3) := by
    rw [← h3.addr]
    rfl
  obtain ⟨hbuffer, hfull, haddr, hrem, hirq⟩ := Dmc.fetched_fields (dummyRead d.addr s3).mach.apu.dmc (peek d.addr s3)
  rw [h4.remain, h4.loop, h4.startAddr, h4.addr] at haddr
  rw [h4.remain, h4.loop, h4.length] at hrem
  rw [h4.remain, h4.loop, h4.irqEn, h4.irq] at hirq
  rw [← hdmc] at hbuffer hfull haddr hrem hirq
  refine ⟨_, hstep, dmcStall_cycles s, h.regs, h.intDue, h.jammed, h.kept, h.quiet.memoryKept, hbuffer, fun b hb => ?_, hfull,
    haddr, hrem, hirq⟩
  rw [hbuffer, peek_memByte ((hq3.memByte _).trans hb)]

end Sys2Proof.Machine

/-! Loading, control and reset (63_cartridge_mappers.md, 64_frame_driver_io.md, 65_snapshot.md, 70_reset_and_hazards.md). -/

namespace Sys2Proof.Machine

/-! ### The header of a cartridge image file, in numbers (63_cartridge_mappers.md R852, R853) -/

theorem headerMapper_toNat (d : List Byte) :
    (headerMapper d).toNat = (d.getD 7 0).toNat / 16 * 16 + (d.getD 6 0).toNat / 16 := by
  have hhigh : ∀ a : Byte, (a &&& 0xF0#8).toNat = (a.toNat / 16) <<< 4 := by decide
  have hlow (b : Byte) : (b >>> 4).toNat = b.toNat / 16 := by rw [BitVec.toNat_ushiftRight, Nat.shiftRight_eq_div_pow]
  have hlt := (d.getD 6 0).isLt
  have hm : headerMapper d = (d.getD 7 0 &&& 0xF0#8) ||| (d.getD 6 0 >>> 4) := rfl
  rw [hm, BitVec.toNat_or, hhigh, hlow, ← Nat.shiftLeft_add_eq_or_of_lt (by omega),
    Nat.shiftLeft_eq]

theorem headerValid_iff (d : List Byte) : headerValid d = true ↔
    ¬ (d.length < 16 ∨ d.take 4 ≠ [0x4E, 0x45, 0x53, 0x1A] ∨ (d.getD 4 0).toNat = 0 ∨
      d.length < 16 + trainerSize d + 16384 * (d.getD 4 0).toNat + 8192 * (d.getD 5 0).toNat) := by
  have hzero : d.getD 4 0 = 0 ↔ (d.getD 4 0).toNat = 0 := BitVec.toNat_eq.trans (by rfl)
  simp only [headerValid, Bool.and_eq_true, decide_eq_true_eq, beq_iff_eq, bne_iff_ne, prgBytes, chrBytes, ne_eq, hzero, fileByte,
    not_or, not_not, Nat.not_lt, ge_iff_le, and_assoc]

theorem supports_iff (set : Config.MapperSet) (id : Byte) : supports set id = true ↔
    (id.toNat = 0 ∨ (id.toNat = 1 ∧ set.m1 = true) ∨ (id.toNat = 2 ∧ set.m2 = true) ∨ (id.toNat = 3 ∧ set.m3 = true) ∨
      (id.toNat = 4 ∧ set.m4 = true) ∨ (id.toNat = 7 ∧ set.m7 = true)) := by
  unfold supports
  split <;> simp_all

/-- A part of a file, as a memory. -/
theorem read_ofList_part (d : List Byte) (o n : Nat) {i : Nat} (h : i < n) :
    Cells.read (Cells.ofList ((d.drop o).take n)) i = d.getD (o + i) 0 := by
  rw [Cells.read_ofList]
  simp [h]

/-- What the image of a file holds (63_cartridge_mappers.md R852, R854). -/
theorem imageOf_memories (name d : List Byte) :
    (∀ m, (imageOf name d).trainer = some m → ∀ i < 512, Cells.read m i = d.getD (16 + i) 0) ∧
    (∀ i < prgBytes d, Cells.read (imageOf name d).prgRom i = d.getD (16 + trainerSize d + i) 0) ∧
    (∀ i < chrBytes d, Cells.read (imageOf name d).chrRom i = d.getD (16 + trainerSize d + prgBytes d + i) 0) := by
  refine ⟨fun m hm i hi => ?_, fun i hi => ?_, fun i hi => ?_⟩
  · simp only [imageOf] at hm
    split at hm
    · rw [← Option.some.inj hm, read_ofList_part d 16 512 hi]
    · exact absurd hm (by simp)
  · simp only [imageOf, List.drop_drop]
    rw [read_ofList_part d _ _ hi]
  · simp only [imageOf, List.drop_drop]
    rw [read_ofList_part d _ _ hi]

/-! ### The stages of a snapshot load (65_snapshot.md R970 to R972) -/

theorem headerOk_iff (img : Image) (data : List Byte) : headerOk img data = true ↔
    20 ≤ data.length ∧ data.take 4 = [0x4E, 0x43, 0x53, 0x53] ∧ fieldAt data 4 2 = 1 ∧ fieldAt data 6 2 = 0 ∧
      fieldAt data 12 4 + 20 = data.length ∧ fieldAt data 8 4 = (compatTag img).toNat := by
  simp only [headerOk, Bool.and_eq_true, decide_eq_true_eq, beq_iff_eq, ge_iff_le, and_assoc]
  refine and_congr_right fun h => and_congr_right fun _ => and_congr_right fun _ => and_congr_right fun _ =>
    and_congr_left fun _ => ?_
  omega

/-- Settles O57: `headerValid_iff`, `supports_iff` and `headerOk_iff` say the checks in the numbers of the file, and what a load
commits is then read off its definition. -/
theorem loadsCommitOrChangeNothing : Obligations.LoadsCommitOrChangeNothing := by
  unfold Obligations.LoadsCommitOrChangeNothing
  refine ⟨fun name data ok s => ⟨fun hidle hlive => ?rejected, fun hlive => ⟨fun hnone => ?missing, fun d hd => ?file⟩⟩,
    fun data s => ⟨fun himg => ?noImage, fun img himg => ⟨?badHeader, ?badBody, ?commit, ?crc⟩⟩⟩
  case rejected =>
    simp [loadRom, hidle, hlive]
  case missing =>
    simp [loadRom, hlive, hnone, parseRom]
  case file =>
    subst hd
    intro byte flag trainer id prg chr set supported
    have hflag (k : Nat) : (fileByte d 6).getLsbD k = flag k := getLsbD_eq_bit _ k
    have htrainer : trainerSize d = trainer := by rw [trainerSize, hflag]
    have hid : (headerMapper d).toNat = id := headerMapper_toNat d
    have hparse : loadRom name (some d) ok s = (match parseRom set name (some d) ok with
        | .ok img => (.rom .success, installImage img s)
        | .error r => (.rom r, s)) := by
      simp only [loadRom, Bool.or_eq_true, decide_eq_true_eq, hlive, if_true]
      rfl
    have hv := headerValid_iff d
    have hs : supports set (headerMapper d) = true ↔ supported := by rw [supports_iff, hid]
    rw [htrainer] at hv
    split
    · rename_i h
      have hv : headerValid d = false := Bool.eq_false_iff.mpr fun e => hv.mp e h
      simp only [hparse, parseRom, hv, Bool.not_false, if_true]
    · rename_i h
      have hv := hv.mpr h
      split
      · rename_i h
        have hs : supports set (headerMapper d) = false := Bool.eq_false_iff.mpr fun e => h (hs.mp e)
        simp only [hparse, parseRom, hv, hs, Bool.not_false, Bool.not_true, if_true, Bool.false_eq_true, if_false]
      · rename_i h
        have hs := hs.mpr (not_not.mp h)
        cases ok with
        | false => simp only [hparse, parseRom, hv, hs, Bool.not_false, Bool.not_true, if_true, Bool.false_eq_true, if_false]
        | true =>
          obtain ⟨hmtrainer, hmprg, hmchr⟩ := imageOf_memories name d
          rw [htrainer] at hmprg hmchr
          refine ⟨imageOf name d, ?_, rfl, rfl, rfl, rfl, hid, rfl, rfl, hflag 0, hflag 1, hflag 3, ?_, hmtrainer, hmprg, hmchr⟩
          · simp only [hparse, parseRom, hv, hs, Bool.not_true, Bool.false_eq_true, if_false]
          · simp only [imageOf, hflag]
            cases flag 2 <;> simp
  case noImage =>
    simp only [loadBlob, himg, deserialize]
  case badHeader =>
    intro h
    have hok : headerOk img data = false := Bool.eq_false_iff.mpr fun e => h ((headerOk_iff img data).mp e)
    simp only [loadBlob, himg, deserialize, hok, Bool.false_eq_true, if_false]
  case badBody =>
    intro h hbody
    simp only [loadBlob, himg, deserialize, (headerOk_iff img data).mpr h, if_true, hbody, updateHost]
  case commit =>
    intro m h hbody
    simp only [loadBlob, himg, deserialize, (headerOk_iff img data).mpr h, if_true, hbody]
  case crc =>
    intro h
    rw [readBody, if_neg fun e => h (beq_iff_eq.mp e)]

/-! ### The control surface (64_frame_driver_io.md R926 to R929) -/

theorem call_of_init {s : State} (h : s.host.control ≠ .notInitialised) (op : HostCall) : call op s = callLive op s :=
  if_neg h

theorem call_before_init {s : State} (h : s.host.control = .notInitialised) {op : HostCall} (hop : op ≠ .init) :
    call op s = (op.failure, s) := by
  unfold call
  rw [if_pos h]
  cases op with
  | init => exact absurd rfl hop
  | _ => rfl

/-- With no live machine there is nothing to save. -/
theorem blob_of_not_live {s : State} (h : s.host.control.live = false) : s.blob = none := by
  unfold State.blob
  split
  · rw [h]; rfl
  · rfl

theorem saveState_of_not_live {s : State} (h : s.host.control.live = false) (slot : Int) :
    saveState slot s = (.bool false, s) := by
  rw [saveState, blob_of_not_live h]
  cases slotIndex slot <;> rfl

theorem loadIf_of_not_live {s : State} (h : s.host.control.live = false) (data : Option (List Byte)) :
    loadIf data s = (.bool false, s) := by
  cases data with
  | none => rfl
  | some d => rw [loadIf, h]; rfl

theorem hostPowerCycle_of_not_live {s : State} (h : s.host.control.live = false) : hostPowerCycle s = s := by
  unfold hostPowerCycle
  split
  · rw [h]; rfl
  · rfl

/-- A run-control operation, where it is accepted and where not. -/
theorem runControl_eq (allowed : List Control) (d : Control) (s : State) : runControl allowed d s =
    if s.host.control ∈ allowed then (.bool true, { s with host := { s.host with control := d } }) else (.bool false, s) := by
  simp only [runControl, List.contains_iff_mem]
  rfl

/-- Settles O58: `runControl_eq` for the run control; Idle and Error have no live machine, so that there is nothing to save, to
load over or to reset. -/
theorem controlViolationsAreNoOps : Obligations.ControlViolationsAreNoOps := by
  unfold Obligations.ControlViolationsAreNoOps
  intro s c enter no
  refine ⟨fun h op hop => call_before_init h hop, fun h => ?_, fun h => ?_⟩
  · simp only [call_of_init h, callLive, runControl_eq, List.mem_cons, List.not_mem_nil, or_false]
    refine ⟨rfl, rfl, rfl, rfl, rfl, fun now hrun => ?_⟩
    rw [runFrame, if_neg hrun]
  · have hinit : s.host.control ≠ .notInitialised := by rcases h with h | h <;> (rw [show s.host.control = _ from h]; decide)
    have hlive : s.host.control.live = false := by rcases h with h | h <;> (rw [show s.host.control = _ from h]; decide)
    simp only [call_of_init hinit, callLive, hostReset, hlive, hostPowerCycle_of_not_live, quickSave, saveState_of_not_live,
      saveStateToBuffer, blob_of_not_live, loadIf_of_not_live, Bool.false_eq_true, if_false, no, and_true, implies_true]

/-! ### Power-on and reset (70_reset_and_hazards.md R1000, R1001) -/

/-- Settles O59. -/
theorem powerOnAndSoftReset : Obligations.PowerOnAndSoftReset := by
  unfold Obligations.PowerOnAndSoftReset
  refine ⟨fun img m => ?_, fun m => ?_⟩
  · refine ⟨rfl, rfl, fun i => ⟨rfl, rfl, rfl, rfl, rfl⟩, rfl, rfl, rfl, rfl, rfl, rfl, rfl, fun h => ?_, ?_, rfl, rfl⟩
    · simp only [powerCycled, powerOnMachine, withTrainer, h]
    · simp only [powerCycled, loadedMachine]
      cases img.battery <;> rfl
  · and_intros <;> rfl

end Sys2Proof.Machine

/-! The PPU (61_ppu.md): its registers as the CPU sees them, and the grid. -/

namespace Sys2Proof.Machine

/-! ### The palette (61_ppu.md R653) -/

theorem palIndex_eq_iff (a b : Nat) : palIndex b = palIndex a ↔ a % 32 = b % 32 ∨ (a % 4 = 0 ∧ a % 16 = b % 16) := by
  unfold palIndex
  dsimp only
  split <;> split <;> omega

theorem setWidth_six (v : Byte) : v.setWidth 6 = BitVec.ofNat 6 v.toNat := (BitVec.ofNat_toNat 6 v).symm

/-- The greyscale mask in numbers. -/
theorem setWidth_six_and_grey : ∀ v : Byte, v.setWidth 6 &&& 0x30 = BitVec.ofNat 6 (v.toNat / 16 % 4 * 16) := by decide

/-- Settles O44: the cell of an address is its `palIndex`, equal for mirrors alone (`palIndex_eq_iff`). -/
theorem paletteMirrors : Obligations.PaletteMirrors := by
  unfold Obligations.PaletteMirrors
  intro vmem mask val a b h
  simp only [paletteRead, paletteWrite, Cells.read_write h, palIndex_eq_iff]
  by_cases hab : a % 32 = b % 32 ∨ (a % 4 = 0 ∧ a % 16 = b % 16)
  · simp only [if_pos hab, ← setWidth_six_and_grey, setWidth_six]
  · simp only [if_neg hab]

/-! ### Register accesses over the bus (20_memory.md R110) -/

theorem region_ppuReg {a : Word} (h1 : 0x2000 ≤ a.toNat) (h2 : a.toNat < 0x4000) {r : BitVec 3} (hr : a.toNat % 8 = r.toNat) :
    region a = .ppuReg r := by
  have hlow : ¬ a < 0x2000 := by bv_omega
  have hhigh : a < 0x4000 := by bv_omega
  have hreg : a.setWidth 3 = r := BitVec.eq_of_toNat_eq (by rw [BitVec.toNat_setWidth]; exact hr)
  rw [region, if_neg hlow, if_pos hhigh, hreg]

theorem busRead_ppuReg {a : Word} {r : BitVec 3} (h : region a = .ppuReg r) (s : State) :
    busRead a s = ((ppuRegRead s.ppuWorld r s.mach.ppu s.mach.mapper).1, { s with mach := { s.mach with
      openBus := (ppuRegRead s.ppuWorld r s.mach.ppu s.mach.mapper).1
      ppu := (ppuRegRead s.ppuWorld r s.mach.ppu s.mach.mapper).2.1
      mapper := (ppuRegRead s.ppuWorld r s.mach.ppu s.mach.mapper).2.2 } }) := by
  rw [busRead, h]
  rfl

theorem busWrite_ppuReg {a : Word} {r : BitVec 3} (h : region a = .ppuReg r) (v : Byte) (s : State) :
    busWrite a v s = { s with mach := { s.mach with
      openBus := v
      ppu := (ppuRegWrite s.ppuWorld r v s.mach.ppu s.mach.mapper).ppu
      vmem := (ppuRegWrite s.ppuWorld r v s.mach.ppu s.mach.mapper).vmem
      cart := (ppuRegWrite s.ppuWorld r v s.mach.ppu s.mach.mapper).cart
      mapper := (ppuRegWrite s.ppuWorld r v s.mach.ppu s.mach.mapper).mapper } } := by
  rw [busWrite, h]
  rfl

/-! ### $2002 (61_ppu.md R672, R694) -/

/-- A byte of three bits over five, in numbers. -/
theorem toNat_status (a b c : Bool) (l : Byte) : (bitOf a ++ bitOf b ++ bitOf c ++ l.setWidth 5).toNat =
    128 * a.toNat + 64 * b.toNat + 32 * c.toNat + l.toNat % 32 := by
  have hbits : ∀ a b c : Bool, (bitOf a ++ bitOf b ++ bitOf c).toNat = 4 * a.toNat + 2 * b.toNat + c.toNat := by decide
  have hlow : (l.setWidth 5).toNat = l.toNat % 32 := BitVec.toNat_setWidth 5 l
  rw [BitVec.toNat_append, hbits, hlow, ← Nat.shiftLeft_add_eq_or_of_lt (Nat.mod_lt _ (by decide)), Nat.shiftLeft_eq]
  omega

theorem num_eq_toNat (b : Bool) : Spec.num b = (b.toNat : Int) := by cases b <;> rfl

theorem status_eq_byte (p : Ppu) : p.status = Spec.byte (128 * Spec.num p.vblankFlag + 64 * Spec.num p.spr0Hit +
    32 * Spec.num p.sprOverflow + (p.ioLatch.toNat % 32 : Nat)) := by
  have h := toNat_status p.vblankFlag p.spr0Hit p.sprOverflow p.ioLatch
  apply BitVec.eq_of_toNat_eq
  rw [Ppu.status, h, Spec.byte, BitVec.toNat_ofInt, num_eq_toNat, num_eq_toNat, num_eq_toNat]
  have h1 := p.vblankFlag.toNat_lt
  have h2 := p.spr0Hit.toNat_lt
  have h3 := p.sprOverflow.toNat_lt
  omega

/-- Which dots are (241,1) within a CPU cycle of three (61_ppu.md R694). -/
theorem vblankInCycle_eq {p : Ppu} (ok : PpuOk p) : p.vblankInCycle =
    decide ((p.scanline = 240 ∧ p.dot = 340) ∨ (p.scanline = 241 ∧ p.dot ≤ 1)) := by
  have hs := ok.scanline
  have hd := ok.dot
  rw [Bool.eq_iff_iff]
  simp only [Ppu.vblankInCycle, Bool.or_eq_true, beq_iff_eq, decide_eq_true_eq]
  by_cases h1 : p.dot < 340
  · have hnext : nextDot (p.scanline, p.dot) = (p.scanline, p.dot + 1) := if_pos h1
    rw [hnext]
    simp only [nextDot]
    split_ifs <;> simp only [Prod.mk.injEq] <;> omega
  · by_cases h2 : p.scanline < 261 <;> simp [nextDot, h1, h2] <;> omega

/-- Settles O41: the byte is `status_eq_byte`, and the race window `vblankInCycle_eq`. -/
theorem statusReadClearsVerticalBlank : Obligations.StatusReadClearsVerticalBlank := by
  unfold Obligations.StatusReadClearsVerticalBlank
  intro a s ok h1 h2 hr p v race
  have hv : p.status = v := status_eq_byte p
  have hrace : p.vblankInCycle = race := vblankInCycle_eq ok
  rw [busRead_ppuReg (region_ppuReg h1 h2 (r := 2) hr), ← hv, ← hrace]
  rfl

/-! ### $2000 to $2003, $2005 and $2006 (61_ppu.md R670, R671, R673, R676, R677) -/

/-- A bit of a register whose bits `lo .. lo + k - 1` are replaced. -/
theorem getLsbD_setField (r f : BitVec 15) (lo k : Nat) {i : Nat} (hi : i < 15) :
    (setField r lo k f).getLsbD i = if lo ≤ i ∧ i < lo + k then f.getLsbD (i - lo) else r.getLsbD i := by
  have hm : ((BitVec.ofNat 15 (2 ^ k - 1)) <<< lo).getLsbD i = decide (lo ≤ i ∧ i < lo + k) := by
    rw [BitVec.getLsbD_shiftLeft, BitVec.getLsbD_ofNat, Nat.testBit_two_pow_sub_one, Bool.eq_iff_iff]
    simp only [Bool.and_eq_true, Bool.not_eq_true', decide_eq_true_eq, decide_eq_false_iff_not]
    omega
  unfold setField
  simp only [BitVec.getLsbD_or, BitVec.getLsbD_and, BitVec.getLsbD_not, hm, BitVec.getLsbD_shiftLeft, hi, decide_true,
    Bool.true_and]
  split
  · rename_i h
    simp [h]
  · rename_i h
    simp [h]

theorem getLsbD_setWidth_fifteen (v : Byte) {i : Nat} (hi : i < 15) : (v.setWidth 15).getLsbD i = v.getLsbD i := by
  rw [BitVec.getLsbD_setWidth, decide_eq_true hi, Bool.true_and]

theorem getLsbD_shiftRight_three (v : Byte) {i : Nat} (hi : i < 15) : ((v >>> 3).setWidth 15).getLsbD i = v.getLsbD (i + 3) := by
  rw [getLsbD_setWidth_fifteen _ hi, BitVec.getLsbD_ushiftRight, Nat.add_comm]

/-! The bits of `t` after each of its writes (61_ppu.md R670, R676, R677). -/

section
variable (t : BitVec 15) (v : Byte) {i : Nat} (hi : i < 15)
include hi

theorem getLsbD_t_ctrl : (setField t 10 2 (v.setWidth 15)).getLsbD i =
    if i = 10 ∨ i = 11 then v.getLsbD (i - 10) else t.getLsbD i := by
  rw [getLsbD_setField _ _ _ _ hi, getLsbD_setWidth_fifteen _ (by omega)]
  exact if_congr (by omega) rfl rfl

theorem getLsbD_t_xScroll : (setField t 0 5 ((v >>> 3).setWidth 15)).getLsbD i =
    if i < 5 then v.getLsbD (i + 3) else t.getLsbD i := by
  rw [getLsbD_setField _ _ _ _ hi, getLsbD_shiftRight_three _ (by omega)]
  exact if_congr (by omega) rfl rfl

theorem getLsbD_t_yScroll : (setField (setField t 12 3 (v.setWidth 15)) 5 5 ((v >>> 3).setWidth 15)).getLsbD i =
    if 12 ≤ i then v.getLsbD (i - 12) else if 5 ≤ i ∧ i < 10 then v.getLsbD (i - 2) else t.getLsbD i := by
  rw [getLsbD_setField _ _ _ _ hi, getLsbD_setField _ _ _ _ hi, getLsbD_shiftRight_three _ (by omega),
    getLsbD_setWidth_fifteen _ (by omega)]
  by_cases hfine : 12 ≤ i
  · rw [if_pos hfine, if_neg (by omega), if_pos (by omega)]
  · by_cases hcoarse : 5 ≤ i ∧ i < 10
    · rw [if_neg hfine, if_pos hcoarse, if_pos (by omega), show i - 5 + 3 = i - 2 by omega]
    · rw [if_neg hfine, if_neg hcoarse, if_neg (by omega), if_neg (by omega)]

theorem getLsbD_t_high : (setField t 8 7 ((v &&& 0x3F).setWidth 15)).getLsbD i =
    if i = 14 then false else if 8 ≤ i then v.getLsbD (i - 8) else t.getLsbD i := by
  have hmask : ∀ j < 7, BitVec.getLsbD (0x3F : Byte) j = decide (j ≠ 6) := by decide
  rw [getLsbD_setField _ _ _ _ hi, getLsbD_setWidth_fifteen _ (by omega), BitVec.getLsbD_and]
  by_cases htop : i = 14
  · rw [if_pos htop, if_pos (by omega), hmask _ (by omega), decide_eq_false (by omega), Bool.and_false]
  · by_cases hhigh : 8 ≤ i
    · rw [if_neg htop, if_pos hhigh, if_pos (by omega), hmask _ (by omega), decide_eq_true (by omega), Bool.and_true]
    · rw [if_neg htop, if_neg hhigh, if_neg (by omega)]

theorem getLsbD_t_low : (setField t 0 8 (v.setWidth 15)).getLsbD i = if i < 8 then v.getLsbD i else t.getLsbD i := by
  rw [getLsbD_setField _ _ _ _ hi, getLsbD_setWidth_fifteen _ (by omega)]
  exact if_congr (by omega) rfl rfl

end

/-- Settles O42: a register access over the bus is `busRead_ppuReg` or `busWrite_ppuReg`; the bits of `t` are the lemmas above. -/
theorem ppuControlAndScrollWrites : Obligations.PpuControlAndScrollWrites := by
  unfold Obligations.PpuControlAndScrollWrites
  intro a val s h1 h2 p reg q bits writes latched
  have hregion (r : BitVec 3) (hr : reg = r.toNat) : region a = .ppuReg r := region_ppuReg h1 h2 hr
  have hwrite (r : BitVec 3) (hr : reg = r.toNat) := busWrite_ppuReg (hregion r hr) val s
  have take (r : BitVec 3) (hr : reg = r.toNat) {p' : Ppu} (h : ppuRegWrite s.ppuWorld r val p s.mach.mapper =
      { ppu := p', vmem := s.mach.vmem, cart := s.mach.cart, mapper := s.mach.mapper }) : writes p' ∧ q = p' := by
    have hb := hwrite r hr
    rw [h] at hb
    exact ⟨hb, congrArg (·.mach.ppu) hb⟩
  refine ⟨?reads, ?warmup, fun h => (take 2 h rfl).1, fun h => (take 3 h rfl).1, fun hw => ?running⟩
  case reads =>
    rintro (h | h | h | h | h)
    · exact busRead_ppuReg (hregion 0 h) s
    · exact busRead_ppuReg (hregion 1 h) s
    · exact busRead_ppuReg (hregion 3 h) s
    · exact busRead_ppuReg (hregion 5 h) s
    · exact busRead_ppuReg (hregion 6 h) s
  case warmup =>
    intro hw
    rintro (h | h | h | h)
    · exact (take 0 h (if_pos hw)).1
    · exact (take 1 h (if_pos hw)).1
    · exact (take 5 h (if_pos hw)).1
    · exact (take 6 h (if_pos hw)).1
  case running =>
    have hwarm : ¬ p.warmup = true := by simp [hw]
    refine ⟨fun h => ?ctrl, fun h => (take 1 h (if_neg hwarm)).1, fun h => ?scroll, fun h => ?address⟩
    case ctrl =>
      obtain ⟨hout, hq⟩ := take 0 h (if_neg hwarm)
      exact ⟨hq ▸ hout, by rw [hq], fun i hi => by rw [hq]; exact getLsbD_t_ctrl p.t val hi⟩
    case scroll =>
      split
      · rename_i hw
        obtain ⟨hout, hq⟩ := take 5 h ((if_neg hwarm).trans (if_neg (by simp [hw])))
        exact ⟨hq ▸ hout, by rw [hq], by rw [hq]; exact BitVec.toNat_setWidth 3 val,
          fun i hi => by rw [hq]; exact getLsbD_t_xScroll p.t val hi⟩
      · rename_i hw
        obtain ⟨hout, hq⟩ := take 5 h ((if_neg hwarm).trans (if_pos (by simpa using hw)))
        exact ⟨hq ▸ hout, by rw [hq], fun i hi => by rw [hq]; exact getLsbD_t_yScroll p.t val hi⟩
    case address =>
      split
      · rename_i hw
        obtain ⟨hout, hq⟩ := take 6 h ((if_neg hwarm).trans (if_neg (by simp [hw])))
        exact ⟨hq ▸ hout, by rw [hq], fun i hi => by rw [hq]; exact getLsbD_t_high p.t val hi⟩
      · rename_i hw
        have hout : ppuRegWrite s.ppuWorld 6 val p s.mach.mapper = _ := (if_neg hwarm).trans (if_pos (by simpa using hw))
        have hb := hwrite 6 h
        rw [hout] at hb
        have hq := congrArg (·.mach.ppu) hb
        replace hq : q = _ := hq
        exact ⟨hq ▸ hb, by rw [hq], fun i hi => by rw [hq]; exact getLsbD_t_low p.t val hi⟩

end Sys2Proof.Machine

/-! The data ports of the PPU, $2004 and $2007 (61_ppu.md R674, R675, R678, R679), and how `v` moves. -/

namespace Sys2Proof.Machine

/-! ### How `v` moves (61_ppu.md R702, R714) -/

theorem xor_one_parts (q : Nat) : (q ^^^ 1) / 2 = q / 2 ∧ (q ^^^ 1) % 2 = (q + 1) % 2 := by
  have h1 : (q ^^^ 1) / 2 = q / 2 ^^^ 0 := Nat.xor_div_two_pow (n := 1)
  have h2 : (q ^^^ 1) % 2 = q % 2 ^^^ 1 := Nat.xor_mod_two_pow (n := 1)
  refine ⟨h1.trans (Nat.xor_zero _), ?_⟩
  rcases Nat.mod_two_eq_zero_or_one q with h | h
  · rw [h2, h, Nat.zero_xor]; omega
  · rw [h2, h, Nat.xor_self]; omega

/-- A flipped bit, in numbers. -/
theorem xor_two_pow_parts (n k : Nat) : (n ^^^ 2 ^ k) % 2 ^ k = n % 2 ^ k ∧
    (n ^^^ 2 ^ k) / 2 ^ k / 2 = n / 2 ^ k / 2 ∧ (n ^^^ 2 ^ k) / 2 ^ k % 2 = (n / 2 ^ k + 1) % 2 := by
  have h1 : (n ^^^ 2 ^ k) % 2 ^ k = n % 2 ^ k ^^^ 2 ^ k % 2 ^ k := Nat.xor_mod_two_pow
  have h2 : (n ^^^ 2 ^ k) / 2 ^ k = n / 2 ^ k ^^^ 2 ^ k / 2 ^ k := Nat.xor_div_two_pow
  rw [Nat.mod_self, Nat.xor_zero] at h1
  rw [Nat.div_self (Nat.two_pow_pos k)] at h2
  rw [h2]
  exact ⟨h1, xor_one_parts _⟩

theorem and_low_mask (k n : Nat) : n &&& (2 ^ k - 1) = n % 2 ^ k := Nat.and_two_pow_sub_one_eq_mod n k

/-- `v` with coarse X cleared. -/
theorem toNat_clearX (v : BitVec 15) : (v &&& ~~~0x1F#15).toNat = v.toNat / 32 * 32 := by
  have hv := v.isLt
  have hlow : (v.toNat &&& 0x7FE0) % 2 ^ 5 = v.toNat % 2 ^ 5 &&& 0 := Nat.and_mod_two_pow
  have hhigh : (v.toNat &&& 0x7FE0) / 2 ^ 5 = v.toNat / 2 ^ 5 &&& (2 ^ 10 - 1) := Nat.and_div_two_pow
  rw [Nat.and_zero] at hlow
  rw [and_low_mask] at hhigh
  rw [BitVec.toNat_and, show (~~~0x1F#15).toNat = 0x7FE0 from rfl]
  omega

/-- `v` with coarse Y cleared. -/
theorem toNat_clearY (v : BitVec 15) : (v &&& ~~~0x03E0#15).toNat = v.toNat / 1024 * 1024 + v.toNat % 32 := by
  have hv := v.isLt
  have hlow : (v.toNat &&& 0x7C1F) % 2 ^ 10 = v.toNat % 2 ^ 10 &&& (2 ^ 5 - 1) := Nat.and_mod_two_pow
  have hhigh : (v.toNat &&& 0x7C1F) / 2 ^ 10 = v.toNat / 2 ^ 10 &&& (2 ^ 5 - 1) := Nat.and_div_two_pow
  rw [and_low_mask] at hlow hhigh
  rw [BitVec.toNat_and, show (~~~0x03E0#15).toNat = 0x7C1F from rfl]
  omega

/-- Coarse X, and the horizontal nametable bit where it wraps. -/
theorem toNat_coarseXInc (v : BitVec 15) : (coarseXInc v).toNat =
    v.toNat / 2048 * 2048 + (v.toNat / 1024 + if v.toNat % 32 = 31 then 1 else 0) % 2 * 1024 + v.toNat / 32 % 32 * 32 +
      (v.toNat % 32 + 1) % 32 := by
  have hv := v.isLt
  have hx : v &&& 0x1F = 31 ↔ v.toNat % 32 = 31 := by
    rw [BitVec.toNat_eq, BitVec.toNat_and]
    exact iff_of_eq (congrArg (· = 31) (and_low_mask 5 v.toNat))
  unfold coarseXInc
  by_cases h : v.toNat % 32 = 31
  · rw [if_pos (hx.mpr h), if_pos h, BitVec.toNat_xor, toNat_clearX]
    obtain ⟨h1, h2, h3⟩ := xor_two_pow_parts (v.toNat / 32 * 32) 10
    rw [show BitVec.toNat (0x0400 : BitVec 15) = 2 ^ 10 from rfl]
    omega
  · rw [if_neg (fun e => h (hx.mp e)), if_neg h, BitVec.toNat_add, show BitVec.toNat (1 : BitVec 15) = 1 from rfl]
    omega

/-- Fine Y, and coarse Y with the vertical nametable bit where it wraps. -/
theorem toNat_yInc (v : BitVec 15) : (yInc v).toNat =
    if v.toNat / 4096 < 7 then v.toNat + 4096
    else v.toNat % 32 + 32 * (if v.toNat / 32 % 32 = 29 ∨ v.toNat / 32 % 32 = 31 then 0 else v.toNat / 32 % 32 + 1) +
      1024 * (v.toNat / 1024 % 2) + 2048 * ((v.toNat / 2048 + if v.toNat / 32 % 32 = 29 then 1 else 0) % 2) := by
  have hv := v.isLt
  have hfine : v >>> 12 < 7 ↔ v.toNat / 4096 < 7 := by
    rw [BitVec.lt_def, BitVec.toNat_ushiftRight, Nat.shiftRight_eq_div_pow]
    exact Iff.rfl
  have hrest : (v &&& 0x0FFF).toNat = v.toNat % 4096 := and_low_mask 12 v.toNat
  have hy (u : BitVec 15) (k : BitVec 15) : (u >>> 5) &&& 0x1F = k ↔ u.toNat / 32 % 32 = k.toNat := by
    rw [BitVec.toNat_eq, BitVec.toNat_and, BitVec.toNat_ushiftRight, Nat.shiftRight_eq_div_pow]
    exact iff_of_eq (congrArg (· = k.toNat) (and_low_mask 5 (u.toNat / 2 ^ 5)))
  unfold yInc
  by_cases h : v.toNat / 4096 < 7
  · rw [if_pos (hfine.mpr h), if_pos h, BitVec.toNat_add, show BitVec.toNat (0x1000 : BitVec 15) = 4096 from rfl]
    omega
  · rw [if_neg (fun e => h (hfine.mp e)), if_neg h]
    dsimp only
    have h29 := hy (v &&& 0x0FFF) 29
    have h31 := hy (v &&& 0x0FFF) 31
    rw [hrest, show BitVec.toNat (29 : BitVec 15) = 29 from rfl] at h29
    rw [hrest, show BitVec.toNat (31 : BitVec 15) = 31 from rfl] at h31
    by_cases hb : v.toNat / 32 % 32 = 29
    · obtain ⟨h1, h2, h3⟩ := xor_two_pow_parts (v.toNat % 4096 / 1024 * 1024 + v.toNat % 4096 % 32) 11
      rw [if_pos (h29.mpr (by omega)), if_pos (.inl hb), if_pos hb, BitVec.toNat_xor, toNat_clearY, hrest,
        show BitVec.toNat (0x0800 : BitVec 15) = 2 ^ 11 from rfl]
      omega
    · rw [if_neg (fun e => hb (by have := h29.mp e; omega)), if_neg hb]
      by_cases hc : v.toNat / 32 % 32 = 31
      · rw [if_pos (h31.mpr (by omega)), if_pos (.inr hc), toNat_clearY, hrest]
        omega
      · rw [if_neg (fun e => hc (by have := h31.mp e; omega)), if_neg (by omega), BitVec.toNat_add, hrest,
          show BitVec.toNat (0x0020 : BitVec 15) = 32 from rfl]
        omega

/-- The parts of a number that is put together as `coarseXInc` does: coarse X, coarse Y, the nametable bits. -/
theorem parts_of_fields {m x y b q : Nat} (hm : m = q * 2048 + b * 1024 + y * 32 + x) (hx : x < 32) (hy : y < 32) (hb : b < 2) :
    m % 32 = x ∧ m / 32 % 32 = y ∧ m / 1024 % 2 = b ∧ m / 2048 = q ∧ m / 4096 = q / 2 := by
  omega

/-- A data-port access while rendering is active, in the spec's numbers (61_ppu.md R714). -/
theorem toNat_glitch (v : BitVec 15) : let n := v.toNat
    let x := n % 32
    let y := n / 32 % 32
    let fine := n / 4096
    (yInc (coarseXInc v)).toNat = (x + 1) % 32 + 32 * (if fine < 7 then y else if y = 29 ∨ y = 31 then 0 else y + 1) +
      1024 * ((n / 1024 + if x = 31 then 1 else 0) % 2) + 2048 * ((n / 2048 + if fine = 7 ∧ y = 29 then 1 else 0) % 2) +
      4096 * ((fine + 1) % 8) := by
  intro n x y fine
  have hq : n / 2048 < 16 := by have : n < 32768 := v.isLt; omega
  have hfine : fine = n / 2048 / 2 := by show n / 4096 = _; omega
  have hc := toNat_coarseXInc v
  obtain ⟨h1, h2, h3, h4, h5⟩ := parts_of_fields hc (Nat.mod_lt _ (by decide)) (Nat.mod_lt _ (by decide))
    (Nat.mod_lt _ (by decide))
  rw [toNat_yInc, h1, h2, h3, h4, h5, hc]
  change (if n / 2048 / 2 < 7 then n / 2048 * 2048 + (n / 1024 + if x = 31 then 1 else 0) % 2 * 1024 + y * 32 + (x + 1) % 32 + 4096
    else (x + 1) % 32 + 32 * (if y = 29 ∨ y = 31 then 0 else y + 1) + 1024 * ((n / 1024 + if x = 31 then 1 else 0) % 2) +
      2048 * ((n / 2048 + if y = 29 then 1 else 0) % 2)) = _
  rw [hfine]
  clear h1 h2 h3 h4 h5 hc hfine
  generalize (n / 1024 + if x = 31 then 1 else 0) % 2 = b
  generalize (x + 1) % 32 = c
  generalize n / 2048 = q at hq ⊢
  clear_value y
  by_cases h : q / 2 < 7
  · rw [if_pos h, if_pos h, if_neg (by omega)]
    omega
  · have h7 : q / 2 = 7 := by omega
    rw [if_neg h, if_neg h, h7]
    simp only [true_and]
    omega


/-! ### $2004 and $2007 (61_ppu.md R674, R675, R678, R679) -/

/-- `v` after a data-port access, in the spec's numbers (61_ppu.md R714). -/
def Ppu.nextV (p : Ppu) : Nat :=
  let n := p.v.toNat
  let x := n % 32
  let y := n / 32 % 32
  let fine := n / 4096
  if p.renderingActive then
    (x + 1) % 32 + 32 * (if fine < 7 then y else if y = 29 ∨ y = 31 then 0 else y + 1) +
      1024 * ((n / 1024 + if x = 31 then 1 else 0) % 2) + 2048 * ((n / 2048 + if fine = 7 ∧ y = 29 then 1 else 0) % 2) +
      4096 * ((fine + 1) % 8)
  else (n + if p.ctrl.getLsbD 2 then 32 else 1) % 2 ^ 15

/-- `VramIncrement()`: `v` moves, and its new value is told to the mapper while rendering is not active. -/
theorem vramIncrement_eq (p : Ppu) (mp : Mapper) (cycles : Nat) : let q := (vramIncrement p mp cycles).1
    q = { p with v := q.v } ∧ q.v.toNat = p.nextV ∧
    (vramIncrement p mp cycles).2 = if p.renderingActive then mp else mp.ppuAddr cycles (q.v.setWidth 14) := by
  unfold vramIncrement Ppu.nextV
  cases p.renderingActive with
  | true => exact ⟨rfl, toNat_glitch p.v, rfl⟩
  | false =>
    refine ⟨rfl, ?_, rfl⟩
    show (p.v + if p.ctrl.getLsbD 2 = true then 32 else 1).toNat = _
    rw [BitVec.toNat_add]
    cases p.ctrl.getLsbD 2 <;> rfl

/-- The nametable byte under a palette address is the one $1000 below (61_ppu.md R678). -/
theorem ntRead_below_palette (w : PpuWorld) (mp : Mapper) (mask : Byte) {a : PpuAddr} (h : 0x3F00 ≤ a.toNat) :
    ntRead w mp a = ppuPeek w mp mask (a - 0x1000) := by
  have ha := a.isLt
  have hsub : (a - 0x1000).toNat = a.toNat - 4096 := by bv_omega
  have h1 : ¬ a - 0x1000 < 0x2000 := by bv_omega
  have h2 : a - 0x1000 < 0x3F00 := by bv_omega
  have hpage : (a.toNat - 4096) / 1024 % 4 = a.toNat / 1024 % 4 := by omega
  have hoff : (a.toNat - 4096) % 1024 = a.toNat % 1024 := by omega
  rw [ppuPeek, if_neg h1, if_pos h2, ntRead, ntRead, ntPage, ntPage, hsub, hpage, hoff]

theorem ntRead_ppuAddr (w : PpuWorld) (mp : Mapper) (c : Nat) (a b : PpuAddr) : ntRead w (mp.ppuAddr c b) a = ntRead w mp a := by
  rw [ntRead, ntRead, ntPage, ntPage, ← mapperMirroring_banks _ (mp.ppuAddr c b), ppuAddr_banks, mapperMirroring_banks]

/-- The palette byte under the two top bits of the latch. -/
theorem toNat_palette_read (l b : Byte) : ((l &&& 0xC0) ||| (b &&& 0x3F)).toNat = l.toNat / 64 * 64 + b.toNat % 64 := by
  have hhigh : ∀ l : Byte, (l &&& 0xC0).toNat = (l.toNat / 64) <<< 6 := by decide
  have hlow : ∀ b : Byte, (b &&& 0x3F).toNat = b.toNat % 64 := by decide
  rw [BitVec.toNat_or, hhigh, hlow, ← Nat.shiftLeft_add_eq_or_of_lt (Nat.mod_lt _ (by decide)), Nat.shiftLeft_eq]

/-- A read of $2007. -/
theorem ppuRegRead_data (w : PpuWorld) (p : Ppu) (mp : Mapper) :
    let d := (ppuRegRead w 7 p mp).1
    let q := (ppuRegRead w 7 p mp).2.1
    let told := mp.ppuAddr w.cycles p.vAddr
    q = { p with ioLatch := d, readBuffer := q.readBuffer, v := q.v } ∧ q.v.toNat = p.nextV ∧
    (ppuRegRead w 7 p mp).2.2 = (if p.renderingActive then told else told.ppuAddr w.cycles (q.v.setWidth 14)) ∧
    (p.vAddr.toNat < 0x3F00 → d = p.readBuffer ∧ q.readBuffer = ppuPeek w mp p.mask p.vAddr) ∧
    (0x3F00 ≤ p.vAddr.toNat → d.toNat = p.ioLatch.toNat / 64 * 64 + (ppuPeek w mp p.mask p.vAddr).toNat % 64 ∧
      q.readBuffer = ppuPeek w mp p.mask (p.vAddr - 0x1000)) := by
  intro d q told
  let buffer := if p.vAddr < 0x3F00 then ppuPeek w mp p.mask p.vAddr else ntRead w told p.vAddr
  have hd : d = if p.vAddr < 0x3F00 then p.readBuffer else (p.ioLatch &&& 0xC0) ||| (ppuPeek w mp p.mask p.vAddr &&& 0x3F) := rfl
  obtain ⟨hq, hv, hm⟩ := vramIncrement_eq { p with readBuffer := buffer, ioLatch := d } told w.cycles
  have hbuffer : q.readBuffer = buffer := congrArg Ppu.readBuffer hq
  refine ⟨?_, hv, hm, fun h => ?_, fun h => ?_⟩
  · rw [hbuffer]; exact hq
  · have h : p.vAddr < 0x3F00 := by bv_omega
    rw [hbuffer, hd, if_pos h]
    exact ⟨rfl, if_pos h⟩
  · have hn : ¬ p.vAddr < 0x3F00 := by bv_omega
    rw [hbuffer, hd, if_neg hn]
    exact ⟨toNat_palette_read _ _, (if_neg hn).trans (by rw [ntRead_ppuAddr, ntRead_below_palette w mp p.mask h])⟩

/-- A write of $2007: the memories are those of `ppuPoke`, but while rendering is active. -/
theorem ppuRegWrite_data (w : PpuWorld) (val : Byte) (p : Ppu) (mp : Mapper) :
    let o := ppuRegWrite w 7 val p mp
    let told := if p.renderingActive then mp else mp.ppuAddr w.cycles p.vAddr
    o.ppu = { p with ioLatch := val, v := o.ppu.v } ∧ o.ppu.v.toNat = p.nextV ∧
    o.mapper = (if p.renderingActive then told else told.ppuAddr w.cycles (o.ppu.v.setWidth 14)) ∧
    (o.vmem, o.cart) = if p.renderingActive then (w.vmem, w.cart) else ppuPoke w mp p.vAddr val := by
  intro o told
  obtain ⟨hq, hv, hm⟩ := vramIncrement_eq { p with ioLatch := val } told w.cycles
  exact ⟨hq, hv, hm, rfl⟩

/-- Which cell of CHR RAM a PPU address below $2000 is (63_cartridge_mappers.md R855; log entry 4). -/
def chrCell (image : Option Image) (mp : Mapper) (a : PpuAddr) (k : Nat) : Bool :=
  match image with
  | none => k == a.toNat
  | some img => img.chrCount == 0 && k == chrOffset mp 8192 a % 8192

theorem chrWrite_cells {c : Cart} (h : Memory.wf c.chrRam = true) (image : Option Image) (mp : Mapper) (a : PpuAddr) (v : Byte) :
    (chrWrite image c mp a v).prgRam = c.prgRam ∧ (chrWrite image c mp a v).cartVram = c.cartVram ∧
    ∀ k, Cells.read (chrWrite image c mp a v).chrRam k = if chrCell image mp a k = true then v else Cells.read c.chrRam k := by
  unfold chrWrite chrCell
  cases image with
  | none => exact ⟨rfl, rfl, fun k => (Cells.read_write h _ _ _).trans (if_congr (by rw [beq_iff_eq]) rfl rfl)⟩
  | some img =>
    dsimp only
    by_cases hc : img.chrCount = 0
    · have hsize : img.chrSize = 8192 := if_pos hc
      rw [if_pos hc, hsize]
      refine ⟨rfl, rfl, fun k => (Cells.read_write h _ _ _).trans (if_congr ?_ rfl rfl)⟩
      rw [hc, Bool.and_eq_true, beq_iff_eq, beq_iff_eq, eq_self_iff_true, true_and]
      rfl
    · rw [if_neg hc]
      refine ⟨rfl, rfl, fun k => (if_neg ?_).symm⟩
      rw [Bool.and_eq_true, beq_iff_eq]
      exact fun e => hc e.1

theorem ntWrite_cells {w : PpuWorld} (hc : Memory.wf w.vmem.ciram = true) (hv : Memory.wf w.cart.cartVram = true) (mp : Mapper)
    (a : PpuAddr) (v : Byte) : let page := (mapperMirroring w.image mp).page (a.toNat / 1024 % 4)
    let off := a.toNat % 1024
    let o := ntWrite w mp a v
    o.1 = { w.vmem with ciram := o.1.ciram } ∧ o.2 = { w.cart with cartVram := o.2.cartVram } ∧
    (∀ k, Cells.read o.1.ciram k = if page < 2 ∧ k = page * 1024 + off then v else Cells.read w.vmem.ciram k) ∧
    (∀ k, Cells.read o.2.cartVram k = if 2 ≤ page ∧ k = (page - 2) * 1024 + off then v else Cells.read w.cart.cartVram k) := by
  intro page off o
  by_cases hp : page < 2
  · have ho : o = ({ w.vmem with ciram := Cells.write w.vmem.ciram (page * 1024 + off) v }, w.cart) := if_pos hp
    rw [ho]
    exact ⟨rfl, rfl, fun k => (Cells.read_write hc _ _ _).trans (if_congr (by simp [hp]) rfl rfl),
      fun k => (if_neg (by omega)).symm⟩
  · have ho : o = (w.vmem, { w.cart with cartVram := Cells.write w.cart.cartVram ((page - 2) * 1024 + off) v }) := if_neg hp
    rw [ho]
    exact ⟨rfl, rfl, fun k => (if_neg (by omega)).symm,
      fun k => (Cells.read_write hv _ _ _).trans (if_congr (by rw [and_iff_right (Nat.not_lt.mp hp)]) rfl rfl)⟩

/-- What a write over the PPU bus stores, cell by cell (61_ppu.md R653, R655, R660). -/
theorem ppuPoke_cells {w : PpuWorld} (hchr : Memory.wf w.cart.chrRam = true) (hc : Memory.wf w.vmem.ciram = true)
    (hv : Memory.wf w.cart.cartVram = true) (mp : Mapper) (a : PpuAddr) (v : Byte) :
    let page := (mapperMirroring w.image mp).page (a.toNat / 1024 % 4)
    let off := a.toNat % 1024
    let o := ppuPoke w mp a v
    o.1.oam = w.vmem.oam ∧ o.2.prgRam = w.cart.prgRam ∧
    (∀ k, Cells.read o.2.chrRam k =
      if a.toNat < 0x2000 ∧ chrCell w.image mp a k = true then v else Cells.read w.cart.chrRam k) ∧
    (∀ k, Cells.read o.1.ciram k =
      if 0x2000 ≤ a.toNat ∧ a.toNat < 0x3F00 ∧ page < 2 ∧ k = page * 1024 + off then v else Cells.read w.vmem.ciram k) ∧
    (∀ k, Cells.read o.2.cartVram k =
      if 0x2000 ≤ a.toNat ∧ a.toNat < 0x3F00 ∧ 2 ≤ page ∧ k = (page - 2) * 1024 + off then v
      else Cells.read w.cart.cartVram k) ∧
    o.1.palette = if 0x3F00 ≤ a.toNat then (paletteWrite w.vmem a.toNat v).palette else w.vmem.palette := by
  intro page off o
  by_cases h1 : a.toNat < 0x2000
  · have ho : o = (w.vmem, chrWrite w.image w.cart mp a v) := if_pos (show a < 0x2000 by bv_omega)
    obtain ⟨hprg, hvram, hcells⟩ := chrWrite_cells hchr w.image mp a v
    rw [ho]
    exact ⟨rfl, hprg, fun k => (hcells k).trans (if_congr (and_iff_right h1).symm rfl rfl), fun k => (if_neg (by omega)).symm,
      fun k => by rw [hvram, if_neg (by omega)], (if_neg (by omega)).symm⟩
  · have hn1 : ¬ a < 0x2000 := by bv_omega
    by_cases h2 : a.toNat < 0x3F00
    · have ho : o = ntWrite w mp a v := (if_neg hn1).trans (if_pos (show a < 0x3F00 by bv_omega))
      have hr1 : 0x2000 ≤ a.toNat := Nat.not_lt.mp h1
      obtain ⟨hvmem, hcart, hciram, hvram⟩ := ntWrite_cells hc hv mp a v
      rw [ho]
      refine ⟨by rw [hvmem], by rw [hcart], fun k => ?_, fun k => ?_, fun k => ?_, ?_⟩
      · rw [hcart, if_neg (by omega)]
      · exact (hciram k).trans (if_congr (by rw [and_iff_right hr1, and_iff_right h2]) rfl rfl)
      · exact (hvram k).trans (if_congr (by rw [and_iff_right hr1, and_iff_right h2]) rfl rfl)
      · rw [hvmem, if_neg (by omega)]
    · have ho : o = (paletteWrite w.vmem a.toNat v, w.cart) := (if_neg hn1).trans (if_neg (by bv_omega))
      rw [ho]
      exact ⟨rfl, rfl, fun k => (if_neg (by omega)).symm, fun k => (if_neg (by omega)).symm, fun k => (if_neg (by omega)).symm,
        (if_pos (by omega)).symm⟩

/-- A write of $2004 (61_ppu.md R674). -/
theorem ppuRegWrite_oam (w : PpuWorld) (val : Byte) (p : Ppu) (mp : Mapper) : ppuRegWrite w 4 val p mp =
    if p.renderingActive then
      { ppu := { p with ioLatch := val, oamaddr := p.oamaddr + 4 }, vmem := w.vmem, cart := w.cart, mapper := mp }
    else { ppu := { p with ioLatch := val, oamaddr := p.oamaddr + 1 }
           vmem := { w.vmem with oam := Cells.write w.vmem.oam p.oamaddr.toNat (oamByte p.oamaddr val) }
           cart := w.cart, mapper := mp } := rfl

/-- Settles O43: $2004 is OAM at OAMADDR; $2007 is `ppuRegRead_data` and `ppuRegWrite_data`, and what it stores is
`ppuPoke_cells`. -/
theorem ppuDataPorts : Obligations.PpuDataPorts := by
  unfold Obligations.PpuDataPorts
  intro a val s h1 h2 ok p i adr n x y fine glitch next told moved byteAt d r m q
  have hregion (k : BitVec 3) (hk : a.toNat % 8 = k.toNat) : region a = .ppuReg k := region_ppuReg h1 h2 hk
  have hkeep : (busRead a s).2 = { s with mach := r } ∧ busWrite a val s = { s with mach := m } := by
    obtain ⟨k, hk⟩ : ∃ k : BitVec 3, a.toNat % 8 = k.toNat := ⟨a.setWidth 3, (BitVec.toNat_setWidth 3 a).symm⟩
    refine ⟨?_, ?_⟩
    · simp only [r, busRead_ppuReg (hregion k hk)]
    · simp only [m, busWrite_ppuReg (hregion k hk)]
  refine ⟨hkeep.1, hkeep.2, fun h => ?oam, fun h => ?data⟩
  case oam =>
    have hread := busRead_ppuReg (hregion 4 h) s
    have hwrite := busWrite_ppuReg (hregion 4 h) val s
    have hd : d = Cells.read s.mach.vmem.oam i := congrArg Prod.fst hread
    rw [ppuRegWrite_oam] at hwrite
    refine ⟨hd, ?_, fun ha => ?_, fun ha => ?_⟩
    · rw [hd]
      exact congrArg (·.2.mach) hread
    · rw [if_pos ha] at hwrite
      exact congrArg (·.mach) hwrite
    · rw [if_neg (by rw [ha]; decide)] at hwrite
      have hm : m = { s.mach with
          openBus := val, ppu := { p with ioLatch := val, oamaddr := p.oamaddr + 1 }
          vmem := { s.mach.vmem with oam := Cells.write s.mach.vmem.oam i (oamByte p.oamaddr val) } } :=
        congrArg (·.mach) hwrite
      refine ⟨by rw [hm], fun k => ?_⟩
      have hoam : m.vmem.oam = Cells.write s.mach.vmem.oam i (oamByte p.oamaddr val) := by rw [hm]
      rw [hoam, Cells.read_write ok.oam.1, oamByte_eq]
  case data =>
    have hread := busRead_ppuReg (hregion 7 h) s
    have hwrite := busWrite_ppuReg (hregion 7 h) val s
    obtain ⟨hq, hv, hmap, hlow, hhigh⟩ := ppuRegRead_data s.ppuWorld p s.mach.mapper
    obtain ⟨wq, wv, wmap, wmem⟩ := ppuRegWrite_data s.ppuWorld val p s.mach.mapper
    have hcells := ppuPoke_cells (w := s.ppuWorld) ok.chrRam.1 ok.ciram.1 ok.cartVram.1 s.mach.mapper adr val
    generalize ppuRegRead s.ppuWorld 7 p s.mach.mapper = o at hread hq hv hmap hlow hhigh
    generalize ppuRegWrite s.ppuWorld 7 val p s.mach.mapper = u at hwrite wq wv wmap wmem
    have hd : d = o.1 := congrArg Prod.fst hread
    have hr : r = { s.mach with openBus := o.1, ppu := o.2.1, mapper := o.2.2 } := congrArg (·.2.mach) hread
    have hm : m = { s.mach with openBus := val, ppu := u.ppu, vmem := u.vmem, cart := u.cart, mapper := u.mapper } :=
      congrArg (·.mach) hwrite
    have hrp : r.ppu = o.2.1 := by rw [hr]
    have hmp : q = u.ppu := by show m.ppu = _; rw [hm]
    have hmems : (m.vmem, m.cart) = (u.vmem, u.cart) := by rw [hm]
    refine ⟨?_, ?_, ?_, ?_, ?_, ?_, fun ha => ?_, fun ha => ?_⟩
    · rw [hrp, hd]
      exact hr.trans (congrArg₂ (fun q mp => { s.mach with openBus := o.1, ppu := q, mapper := mp }) hq hmap)
    · rw [hrp]; exact hv
    · rw [hrp, hd]; exact hlow
    · rw [hrp, hd]; exact hhigh
    · obtain ⟨hvm, hca⟩ := Prod.mk.inj hmems
      rw [hmp, hvm, hca]
      exact hm.trans (congrArg₂ (fun q mp => { s.mach with
        openBus := val, ppu := q, vmem := u.vmem, cart := u.cart, mapper := mp }) wq wmap)
    · rw [hmp]; exact wv
    · rw [wmem, if_pos ha] at hmems
      exact Prod.mk.inj hmems
    · rw [wmem, if_neg (by rw [ha]; decide)] at hmems
      obtain ⟨hvm, hca⟩ := Prod.mk.inj hmems
      rw [hvm, hca]
      exact hcells

end Sys2Proof.Machine

/-! The PPU dot (61_ppu.md R690 to R695): the stages of its rendering work keep the grid, and let no status flag fall. -/

namespace Sys2Proof.Machine

/-! ### The grid (61_ppu.md R690 to R695) -/

/-- What decides where the next dot is. -/
structure SameGrid (p q : Ppu) : Prop where
  scanline : q.scanline = p.scanline
  dot      : q.dot = p.dot
  frameOdd : q.frameOdd = p.frameOdd
  mask     : q.mask = p.mask

theorem SameGrid.trans {p q r : Ppu} (h : SameGrid p q) (g : SameGrid q r) : SameGrid p r :=
  ⟨g.scanline.trans h.scanline, g.dot.trans h.dot, g.frameOdd.trans h.frameOdd, g.mask.trans h.mask⟩

/-- The flags that a dot's rendering work leaves alone, but for the two of sprites. -/
structure SameFlags (p q : Ppu) : Prop where
  vblankFlag  : q.vblankFlag = p.vblankFlag
  suppressVbl : q.suppressVbl = p.suppressVbl
  warmup      : q.warmup = p.warmup
  spr0Hit     : q.spr0Hit = p.spr0Hit
  sprOverflow : q.sprOverflow = p.sprOverflow

theorem SameFlags.refl (p : Ppu) : SameFlags p p := ⟨rfl, rfl, rfl, rfl, rfl⟩

theorem SameFlags.trans {p q r : Ppu} (h : SameFlags p q) (g : SameFlags q r) : SameFlags p r :=
  ⟨g.vblankFlag.trans h.vblankFlag, g.suppressVbl.trans h.suppressVbl, g.warmup.trans h.warmup, g.spr0Hit.trans h.spr0Hit,
    g.sprOverflow.trans h.sprOverflow⟩

/-- A stage of a dot that draws no pixel and evaluates no sprites. -/
structure QuietStage (p q : Ppu) : Prop where
  grid  : SameGrid p q
  flags : SameFlags p q

theorem QuietStage.of {p q : Ppu} (h1 : q.scanline = p.scanline) (h2 : q.dot = p.dot) (h3 : q.frameOdd = p.frameOdd)
    (h4 : q.mask = p.mask) (h5 : q.vblankFlag = p.vblankFlag) (h6 : q.suppressVbl = p.suppressVbl)
    (h7 : q.warmup = p.warmup) (h8 : q.spr0Hit = p.spr0Hit) (h9 : q.sprOverflow = p.sprOverflow) : QuietStage p q :=
  ⟨⟨h1, h2, h3, h4⟩, ⟨h5, h6, h7, h8, h9⟩⟩

theorem QuietStage.trans {p q r : Ppu} (h : QuietStage p q) (g : QuietStage q r) : QuietStage p r :=
  ⟨h.grid.trans g.grid, h.flags.trans g.flags⟩

theorem bgShift_quiet (p : Ppu) : QuietStage p (bgShift p) := by
  unfold bgShift
  split <;> exact .of rfl rfl rfl rfl rfl rfl rfl rfl rfl

theorem bgReload_quiet (p : Ppu) : QuietStage p (bgReload p) := by
  unfold bgReload
  split <;> exact .of rfl rfl rfl rfl rfl rfl rfl rfl rfl

theorem bgFetch_quiet (w : PpuWorld) (p : Ppu) (mp : Mapper) : QuietStage p (bgFetch w p mp).1 := by
  unfold bgFetch
  repeat' split
  all_goals exact .of rfl rfl rfl rfl rfl rfl rfl rfl rfl

theorem scrollUpdate_quiet (p : Ppu) : QuietStage p (scrollUpdate p) := by
  unfold scrollUpdate
  repeat' split
  all_goals exact .of rfl rfl rfl rfl rfl rfl rfl rfl rfl

theorem spriteFetch_quiet (w : PpuWorld) (p : Ppu) (mp : Mapper) : QuietStage p (spriteFetch w p mp).1 := by
  unfold spriteFetch
  dsimp only
  repeat' split
  all_goals exact .of rfl rfl rfl rfl rfl rfl rfl rfl rfl

/-- Drawing a pixel can only raise sprite-0 hit, and on a visible line alone. -/
theorem drawPixel_flags (v : VideoMem) (p : Ppu) : SameGrid p (drawPixel v p) ∧
    (p.spr0Hit = true → (drawPixel v p).spr0Hit = true) ∧ SameFlags { p with spr0Hit := (drawPixel v p).spr0Hit } (drawPixel v p) ∧
    (240 ≤ p.scanline → drawPixel v p = p) := by
  unfold drawPixel
  split
  · rename_i h
    refine ⟨⟨rfl, rfl, rfl, rfl⟩, fun hs => ?_, ⟨rfl, rfl, rfl, rfl, rfl⟩, fun hl => ?_⟩
    · simp [hs]
    · simp at h; omega
  · exact ⟨⟨rfl, rfl, rfl, rfl⟩, id, ⟨rfl, rfl, rfl, rfl, rfl⟩, fun _ => rfl⟩

/-- Sprite evaluation can only raise the overflow flag, and at dot 256 alone. -/
theorem spriteEvaluation_flags (oam : Memory) (p : Ppu) : SameGrid p (spriteEvaluation oam p) ∧
    (p.sprOverflow = true → (spriteEvaluation oam p).sprOverflow = true) ∧
    SameFlags { p with sprOverflow := (spriteEvaluation oam p).sprOverflow } (spriteEvaluation oam p) ∧
    (p.dot ≠ 256 → spriteEvaluation oam p = p) := by
  unfold spriteEvaluation
  split
  · rename_i h
    split
    · exact ⟨⟨rfl, rfl, rfl, rfl⟩, fun hs => by simp [hs], ⟨rfl, rfl, rfl, rfl, rfl⟩, fun hd => absurd h hd⟩
    · exact ⟨⟨rfl, rfl, rfl, rfl⟩, id, ⟨rfl, rfl, rfl, rfl, rfl⟩, fun hd => absurd h hd⟩
  · exact ⟨⟨rfl, rfl, rfl, rfl⟩, id, ⟨rfl, rfl, rfl, rfl, rfl⟩, fun _ => rfl⟩

/-- What the rendering work of a dot does to the grid and the flags. -/
structure Rendered (p q : Ppu) : Prop where
  grid        : SameGrid p q
  vblankFlag  : q.vblankFlag = p.vblankFlag
  suppressVbl : q.suppressVbl = p.suppressVbl
  warmup      : q.warmup = p.warmup
  spr0Hit     : p.spr0Hit = true → q.spr0Hit = true
  sprOverflow : p.sprOverflow = true → q.sprOverflow = true
  outside     : 240 ≤ p.scanline → p.dot ≠ 256 → SameFlags p q

theorem QuietStage.rendered {p q r : Ppu} (h : QuietStage p q) (g : Rendered q r) : Rendered p r where
  grid := h.grid.trans g.grid
  vblankFlag := g.vblankFlag.trans h.flags.vblankFlag
  suppressVbl := g.suppressVbl.trans h.flags.suppressVbl
  warmup := g.warmup.trans h.flags.warmup
  spr0Hit hp := g.spr0Hit (h.flags.spr0Hit.trans hp)
  sprOverflow hp := g.sprOverflow (h.flags.sprOverflow.trans hp)
  outside hl hd := h.flags.trans (g.outside (h.grid.scanline.symm ▸ hl) (h.grid.dot.symm ▸ hd))

theorem rendered_drawPixel (v : VideoMem) (p : Ppu) : Rendered p (drawPixel v p) :=
  have ⟨grid, rises, flags, outside⟩ := drawPixel_flags v p
  ⟨grid, flags.vblankFlag, flags.suppressVbl, flags.warmup, rises, flags.sprOverflow.trans,
    fun hl _ => by rw [outside hl]; exact .refl p⟩

theorem Rendered.evaluated {p q : Ppu} (h : Rendered p q) (oam : Memory) : Rendered p (spriteEvaluation oam q) :=
  have ⟨grid, rises, flags, outside⟩ := spriteEvaluation_flags oam q
  ⟨h.grid.trans grid, flags.vblankFlag.trans h.vblankFlag, flags.suppressVbl.trans h.suppressVbl,
    flags.warmup.trans h.warmup, fun hp => flags.spr0Hit.trans (h.spr0Hit hp), fun hp => rises (h.sprOverflow hp),
    fun hl hd => by rw [outside (h.grid.dot.symm ▸ hd)]; exact h.outside hl hd⟩

theorem rendered_renderDot (w : PpuWorld) (p : Ppu) (mp : Mapper) : Rendered p (renderDot w p mp).1 := by
  unfold renderDot
  split
  · have hq := (((bgShift_quiet p).trans (bgReload_quiet _)).trans (bgFetch_quiet w _ mp)).trans (scrollUpdate_quiet _)
    exact ((hq.trans (spriteFetch_quiet w _ _)).rendered (rendered_drawPixel _ _)).evaluated _
  · exact QuietStage.rendered (q := { p with sprLatch := none }) (.of rfl rfl rfl rfl rfl rfl rfl rfl rfl)
      (rendered_drawPixel w.vmem _)

theorem statusFlags_grid (p : Ppu) : SameGrid p (statusFlags p) := by
  unfold statusFlags
  repeat' split
  all_goals exact ⟨rfl, rfl, rfl, rfl⟩

theorem advance_flags (p : Ppu) : SameFlags p (advance p) := by
  unfold advance
  repeat' split
  all_goals exact ⟨rfl, rfl, rfl, rfl, rfl⟩

/-- The last dot of a frame, in numbers (61_ppu.md R690, R692). -/
def AtFrameEnd (p : Ppu) : Prop :=
  p.scanline = 261 ∧ (p.dot = 340 ∨ (p.dot = 339 ∧ p.frameOdd = true ∧ (p.mask.getLsbD 3 || p.mask.getLsbD 4) = true))

theorem lastDot_iff {p : Ppu} (ok : PpuOk p) : p.lastDot = true ↔ AtFrameEnd p := by
  have hs := ok.scanline
  have hd := ok.dot
  simp only [Ppu.lastDot, Ppu.renderingEnabled, AtFrameEnd, Bool.and_eq_true, Bool.or_eq_true, decide_eq_true_eq, beq_iff_eq]
  constructor
  · rintro ⟨h1, h2⟩
    exact ⟨by omega, h2.imp (fun h => by omega) fun ⟨⟨⟨_, h3⟩, h4⟩, h5⟩ => ⟨h3, h4, h5⟩⟩
  · rintro ⟨h1, h2⟩
    exact ⟨by omega, h2.imp (fun h => by omega) fun ⟨h3, h4, h5⟩ => ⟨⟨⟨h1, h3⟩, h4⟩, h5⟩⟩

theorem advance_of_last {p : Ppu} (h : p.lastDot = true) :
    advance p = { p with scanline := 0, dot := 0, frameOdd := !p.frameOdd } :=
  if_pos h

/-- Within a frame the dots are counted along the lines. -/
theorem advance_position {p : Ppu} (ok : PpuOk p) (h : ¬ p.lastDot = true) :
    (advance p).frameOdd = p.frameOdd ∧
      341 * (advance p).scanline + (advance p).dot = 341 * p.scanline + p.dot + 1 ∧ (advance p).dot ≤ 340 := by
  have hd := ok.dot
  rw [advance, if_neg h]
  split
  · refine ⟨rfl, ?_, ?_⟩ <;> dsimp only <;> omega
  · refine ⟨rfl, ?_, ?_⟩ <;> dsimp only <;> omega

/-- A tick is the rendering work of the dot, then the counters, then at the wrap the published frame. -/
theorem ppuTick_cases (w : PpuWorld) {o : DotOut} (ok : PpuOk o.ppu) : ∃ r, Rendered (statusFlags o.ppu) r ∧ PpuOk r ∧
    (ppuTick w o).ppu = advance r ∧ (ppuTick w o).frame = (if r.lastDot then some r.fbWork else o.frame) ∧
    (ppuTick w o).done = (o.done || r.lastDot) :=
  ⟨_, rendered_renderDot w _ _, renderDot_ppuOk w _ ((statusFlags_same _).ppuOk ok), rfl, rfl, rfl⟩

/-- The counters, the parity and the published frame after a tick. -/
theorem ppuTick_counters (w : PpuWorld) {o : DotOut} (ok : PpuOk o.ppu) :
    (AtFrameEnd o.ppu → (ppuTick w o).ppu.scanline = 0 ∧ (ppuTick w o).ppu.dot = 0 ∧
      (ppuTick w o).ppu.frameOdd = !o.ppu.frameOdd ∧ (ppuTick w o).frame = some (ppuTick w o).ppu.fbWork ∧
      (ppuTick w o).done = true) ∧
    (¬ AtFrameEnd o.ppu → (ppuTick w o).ppu.frameOdd = o.ppu.frameOdd ∧ (ppuTick w o).frame = o.frame ∧
      (ppuTick w o).done = o.done ∧
      341 * (ppuTick w o).ppu.scanline + (ppuTick w o).ppu.dot = 341 * o.ppu.scanline + o.ppu.dot + 1 ∧
      (ppuTick w o).ppu.dot ≤ 340) := by
  obtain ⟨r, hr, hok, hppu, hframe, hdone⟩ := ppuTick_cases w ok
  have hgrid : SameGrid o.ppu r := (statusFlags_grid o.ppu).trans hr.grid
  have hlast : r.lastDot = true ↔ AtFrameEnd o.ppu := by
    rw [lastDot_iff hok, AtFrameEnd, AtFrameEnd, hgrid.scanline, hgrid.dot, hgrid.frameOdd, hgrid.mask]
  refine ⟨fun h => ?_, fun h => ?_⟩
  · have h := hlast.mpr h
    rw [h] at hdone
    rw [if_pos h] at hframe
    rw [hppu, hframe, hdone, advance_of_last h, ← hgrid.frameOdd]
    exact ⟨rfl, rfl, rfl, rfl, Bool.or_true _⟩
  · have h := fun hn => h (hlast.mp hn)
    obtain ⟨hodd, hpos, hdot⟩ := advance_position hok h
    rw [Bool.eq_false_iff.mpr h, Bool.or_false] at hdone
    rw [if_neg h] at hframe
    rw [hppu, hodd, hpos, hgrid.frameOdd, hgrid.scanline, hgrid.dot]
    exact ⟨rfl, hframe, hdone, rfl, hdot⟩

theorem statusFlags_set {p : Ppu} (h : p.scanline = 241 ∧ p.dot = 1) :
    statusFlags p = { p with suppressVbl := false, vblankFlag := if p.suppressVbl then p.vblankFlag else true } :=
  if_pos (by simp [h])

theorem statusFlags_clear {p : Ppu} (h : p.scanline = 261 ∧ p.dot = 1) :
    statusFlags p = { p with vblankFlag := false, spr0Hit := false, sprOverflow := false, warmup := false } :=
  (if_neg (by simp [h])).trans (if_pos (by simp [h]))

theorem statusFlags_keep {p : Ppu} (h1 : ¬ (p.scanline = 241 ∧ p.dot = 1)) (h2 : ¬ (p.scanline = 261 ∧ p.dot = 1)) :
    statusFlags p = p :=
  (if_neg (by simpa using h1)).trans (if_neg (by simpa using h2))

/-- Settles O45: the counters are `ppuTick_counters`; the rendering work after `statusFlags` lets no flag fall, and in vertical
blank it changes none (`rendered_renderDot`). -/
theorem dotsAdvanceTheGrid : Obligations.DotsAdvanceTheGrid := by
  unfold Obligations.DotsAdvanceTheGrid
  intro w o ok p q enabled last
  obtain ⟨hend, hinside⟩ := ppuTick_counters w ok
  obtain ⟨r, hr, -, hppu, -, -⟩ := ppuTick_cases w ok
  have hflags : SameFlags r q := by
    have := advance_flags r
    rwa [← hppu] at this
  refine ⟨?counters, ?flags⟩
  case counters =>
    split
    · exact hend ‹_›
    · exact hinside ‹_›
  case flags =>
    split
    · rename_i h
      rw [statusFlags_set h] at hr
      have hout := hr.outside (by dsimp only; omega) (by dsimp only; omega)
      have hall := hout.trans hflags
      refine ⟨hall.suppressVbl, hall.vblankFlag.trans ?_, hall.warmup, hall.spr0Hit, hall.sprOverflow⟩
      show (if p.suppressVbl = true then p.vblankFlag else true) = _
      cases p.suppressVbl <;> simp
    · split
      · rename_i h
        rw [statusFlags_clear h] at hr
        have hall := (hr.outside (by dsimp only; omega) (by dsimp only; omega)).trans hflags
        exact ⟨hall.vblankFlag, hall.spr0Hit, hall.sprOverflow, hall.warmup, hall.suppressVbl⟩
      · rename_i h1 h2
        rw [statusFlags_keep h1 h2] at hr
        exact ⟨hflags.vblankFlag.trans hr.vblankFlag, hflags.suppressVbl.trans hr.suppressVbl, hflags.warmup.trans hr.warmup,
          fun h => hflags.spr0Hit.trans (hr.spr0Hit h), fun h => hflags.sprOverflow.trans (hr.sprOverflow h)⟩

end Sys2Proof.Machine

/-! The APU (62_apu.md): registers, frame sequencer, timers, mixer and resampler. Each lemma says an operation of the model in
the spec's numbers. -/

namespace Sys2Proof.Machine

/-! ### Register fields in numbers (62_apu.md R753 to R767) -/

theorem setWidth_eq_ofNat {k : Nat} (v : Byte) : v.setWidth k = BitVec.ofNat k v.toNat := (BitVec.ofNat_toNat k v).symm

theorem toNat_shiftRight (v : Byte) (j : Nat) : (v >>> j).toNat = v.toNat / 2 ^ j := by
  rw [BitVec.toNat_ushiftRight, Nat.shiftRight_eq_div_pow]

theorem lengthOf_eq : ∀ v : Byte, lengthOf v = BitVec.ofNat 8 (([10, 254, 20, 2, 40, 4, 80, 6, 160, 8, 60, 10, 14, 12, 26, 14,
    12, 16, 24, 18, 48, 20, 96, 22, 192, 24, 72, 26, 16, 28, 32, 30] : List Nat).getD (v.toNat / 8) 0) := by decide

/-- The low byte of a timer period is replaced. -/
theorem period_low (p : BitVec 11) (v : Byte) :
    (p &&& 0x700) ||| v.setWidth 11 = BitVec.ofNat 11 (p.toNat / 256 * 256 + v.toNat) := by
  have hp := p.isLt
  have hv := v.isLt
  have hlow : (p.toNat &&& 0x700) % 2 ^ 8 = p.toNat % 2 ^ 8 &&& 0 := Nat.and_mod_two_pow
  have hhigh : (p.toNat &&& 0x700) / 2 ^ 8 = p.toNat / 2 ^ 8 &&& (2 ^ 3 - 1) := Nat.and_div_two_pow
  rw [Nat.and_zero] at hlow
  rw [Nat.and_two_pow_sub_one_eq_mod] at hhigh
  have hmask : p.toNat &&& 0x700 = (p.toNat / 256) <<< 8 := by rw [Nat.shiftLeft_eq]; omega
  apply BitVec.eq_of_toNat_eq
  rw [BitVec.toNat_or, BitVec.toNat_and, BitVec.toNat_setWidth, BitVec.toNat_ofNat, Nat.mod_eq_of_lt (by omega : v.toNat < 2 ^ 11)]
  show p.toNat &&& 0x700 ||| v.toNat = _
  rw [hmask, ← Nat.shiftLeft_add_eq_or_of_lt hv, Nat.shiftLeft_eq]
  omega

/-- The three high bits of a timer period are replaced. -/
theorem period_high (p : BitVec 11) (v : Byte) :
    (p &&& 0x0FF) ||| (v.setWidth 11 <<< 8) = BitVec.ofNat 11 (v.toNat % 8 * 256 + p.toNat % 256) := by
  have hp := p.isLt
  have hv := v.isLt
  have hlow : p.toNat &&& 0xFF = p.toNat % 2 ^ 8 := Nat.and_two_pow_sub_one_eq_mod p.toNat 8
  have hshift : (v.setWidth 11 <<< 8).toNat = (v.toNat % 8) <<< 8 := by
    rw [BitVec.toNat_shiftLeft, BitVec.toNat_setWidth, Nat.shiftLeft_eq, Nat.shiftLeft_eq]
    omega
  apply BitVec.eq_of_toNat_eq
  rw [BitVec.toNat_or, BitVec.toNat_and, BitVec.toNat_ofNat, hshift]
  show p.toNat &&& 0xFF ||| _ = _
  rw [hlow, Nat.or_comm, ← Nat.shiftLeft_add_eq_or_of_lt (Nat.mod_lt _ (by decide)), Nat.shiftLeft_eq]
  omega

theorem dmcStart_eq : ∀ v : Byte, 0xC000 + (v.setWidth 16 <<< 6) = BitVec.ofNat 16 (0xC000 + 64 * v.toNat) := by decide

theorem dmcLength_eq : ∀ v : Byte, (v.setWidth 12 <<< 4) + 1 = BitVec.ofNat 12 (16 * v.toNat + 1) := by decide

theorem and_eq_ite (a b : Bool) : (a && b) = if b = true then a else false := by cases a <;> cases b <;> rfl

theorem and_not_eq_ite (a b : Bool) : (a && !b) = if b = true then false else a := by cases a <;> cases b <;> rfl

/-! The eight bits of a $4015 read (62_apu.md R769). -/

theorem getLsbD_octet : ∀ b7 b6 b5 b4 b3 b2 b1 b0 : Bool,
    let b := bitOf b7 ++ bitOf b6 ++ bitOf b5 ++ bitOf b4 ++ bitOf b3 ++ bitOf b2 ++ bitOf b1 ++ bitOf b0
    b.getLsbD 7 = b7 ∧ b.getLsbD 6 = b6 ∧ b.getLsbD 5 = b5 ∧ b.getLsbD 4 = b4 ∧ b.getLsbD 3 = b3 ∧ b.getLsbD 2 = b2 ∧
      b.getLsbD 1 = b1 ∧ b.getLsbD 0 = b0 := by decide

theorem bne_zero_eq {k : Nat} (v : BitVec k) : (v != 0) = decide (0 < v.toNat) := by
  have h : v = 0 ↔ v.toNat = 0 := by rw [BitVec.toNat_eq]; rfl
  rw [Bool.eq_iff_iff, bne_iff_ne, decide_eq_true_eq, ne_eq, h, Nat.pos_iff_ne_zero]

/-- Settles O46: the bus hands the write to `Apu.write`, whose fields are the numbers of the lemmas above. -/
theorem apuRegisters : Obligations.ApuRegisters := by
  unfold Obligations.ApuRegisters
  intro v s a n length writes r0 r1 low high r3
  have channel (w : Word) (r : Nat) (hr : region w = .apuChannel r) {b : Apu} (hb : a.write s.mach.hidden.cycles r v = b) :
      writes w b := by
    rw [← hb]
    show busWrite w v s = _
    rw [busWrite, hr]
    rfl
  have hlen : lengthOf v = length := lengthOf_eq v
  have hr0 (en : Bool) (p : Pulse) : p.write en 0 v = r0 p := by
    simp only [Pulse.write, setWidth_eq_ofNat, toNat_shiftRight]
    rfl
  have hr1 (en : Bool) (p : Pulse) : p.write en 1 v = r1 p := by
    simp only [Pulse.write, setWidth_eq_ofNat, toNat_shiftRight]
    rfl
  have hr2 (en : Bool) (p : Pulse) : p.write en 2 v = { p with period := low p.period } := by
    simp only [Pulse.write, period_low]
    rfl
  have hr3 (en : Bool) (p : Pulse) : p.write en 3 v = r3 en p := by
    simp only [Pulse.write, period_high, hlen]
    rfl
  have p1 (r : Nat) (hr : r < 4) {p : Pulse} (hp : a.p1.write a.enP1 r v = p) :
      a.write s.mach.hidden.cycles r v = { a with p1 := p } := by
    interval_cases r <;> rw [← hp] <;> rfl
  have p2 (r : Nat) (hr : r < 4) {p : Pulse} (hp : a.p2.write a.enP2 r v = p) :
      a.write s.mach.hidden.cycles (r + 4) v = { a with p2 := p } := by
    interval_cases r <;> rw [← hp] <;> rfl
  refine ⟨channel 0x4000 0 rfl (p1 0 (by decide) (hr0 _ _)), channel 0x4004 4 rfl (p2 0 (by decide) (hr0 _ _)),
    channel 0x4001 1 rfl (p1 1 (by decide) (hr1 _ _)), channel 0x4005 5 rfl (p2 1 (by decide) (hr1 _ _)),
    channel 0x4002 2 rfl (p1 2 (by decide) (hr2 _ _)), channel 0x4006 6 rfl (p2 2 (by decide) (hr2 _ _)),
    channel 0x4003 3 rfl (p1 3 (by decide) (hr3 _ _)), channel 0x4007 7 rfl (p2 3 (by decide) (hr3 _ _)),
    channel 0x4008 8 rfl ?linear, channel 0x4009 9 rfl rfl, channel 0x400D 13 rfl rfl, channel 0x400A 10 rfl ?triLow,
    channel 0x400B 11 rfl ?triHigh, channel 0x400C 12 rfl ?noise, channel 0x400E 14 rfl ?noisePeriod,
    channel 0x400F 15 rfl ?noiseLength, channel 0x4010 16 rfl ?dmc, channel 0x4011 17 rfl ?dmcLevel,
    channel 0x4012 18 rfl ?dmcStart, channel 0x4013 19 rfl ?dmcLength, ?enables, ?frame, ?status⟩
  case linear | noise | noisePeriod | dmcLevel => simp only [Apu.write, setWidth_eq_ofNat]; rfl
  case triLow => simp only [Apu.write, period_low]; rfl
  case triHigh => simp only [Apu.write, period_high, hlen]; rfl
  case noiseLength => simp only [Apu.write, hlen]
  case dmc => simp only [Apu.write, setWidth_eq_ofNat, and_eq_ite]; rfl
  case dmcStart => simp only [Apu.write, dmcStart_eq]; rfl
  case dmcLength => simp only [Apu.write, dmcLength_eq]; rfl
  case status =>
    intro b
    have hb : b = a.status s.mach.openBus := rfl
    have h := getLsbD_octet a.dmc.irq a.fc.irq (s.mach.openBus.getLsbD 5) (a.dmc.remain != 0) (a.noi.len != 0) (a.tri.len != 0)
      (a.p2.len != 0) (a.p1.len != 0)
    simp only [bne_zero_eq] at h
    rw [hb, Apu.status]
    simp only [bne_zero_eq]
    exact ⟨rfl, h⟩
  case enables =>
    intro dmc
    have hdmc : (if !v.getLsbD 4 then { a.dmc with remain := 0 } else if a.dmc.remain = 0 then a.dmc.restart else a.dmc) = dmc := by
      show _ = if v.getLsbD 4 = false then _ else _
      cases v.getLsbD 4 <;> rfl
    rw [← hdmc]
    rfl
  case frame =>
    show busWrite 0x4017 v s = _
    rw [← and_not_eq_ite]
    rfl


/-! ### The frame sequencer (62_apu.md R780 to R786) -/

/-! What the clocks of a quarter and a half frame do to each unit, in the spec's numbers. -/

/-- An envelope after a step with or without a quarter frame (62_apu.md R783). -/
def envAfter (quarter : Bool) (e : Envelope) (vol : BitVec 4) (loop : Bool) : Envelope :=
  if quarter = false then e
  else if e.start = true then { start := false, div := vol, decay := 15 }
  else if e.div.toNat = 0 then
    { e with div := vol, decay := if 0 < e.decay.toNat then BitVec.ofNat 4 (e.decay.toNat - 1)
                                  else if loop = true then 15 else 0 }
  else { e with div := BitVec.ofNat 4 (e.div.toNat - 1) }

/-- A length counter after a step with or without a half frame (62_apu.md R785). -/
def lenAfter (half : Bool) (l : Byte) (halt : Bool) : Byte :=
  if half = true ∧ 0 < l.toNat ∧ halt = false then BitVec.ofNat 8 (l.toNat - 1) else l

/-- A pulse channel after a step of the sequencer (62_apu.md R784). -/
def pulseAfter (quarter half : Bool) (one : Bool) (p : Pulse) : Pulse :=
  let change : Int := (p.period.toNat / 2 ^ p.swShift.toNat : Nat)
  let target : Int := if p.swNeg = true then p.period.toNat - change - (if one = true then 1 else 0) else p.period.toNat + change
  let moves := half = true ∧ p.swDiv.toNat = 0 ∧ p.swEn = true ∧ p.swShift.toNat ≠ 0 ∧ 8 ≤ p.period.toNat ∧ target ≤ 0x7FF
  let reload := p.swDiv.toNat = 0 ∨ p.swReload = true
  { p with
    env := envAfter quarter p.env p.vol p.halt
    period := if moves then BitVec.ofInt 11 target else p.period
    swDiv := if half = false then p.swDiv else if reload then p.swPer else BitVec.ofNat 3 (p.swDiv.toNat - 1)
    swReload := if half = true ∧ reload then false else p.swReload
    len := lenAfter half p.len p.halt }

/-- The triangle after a step of the sequencer (62_apu.md R786). -/
def triangleAfter (quarter half : Bool) (t : Triangle) : Triangle :=
  { t with
    lin := if quarter = false then t.lin else if t.linReload = true then t.linLoad else BitVec.ofNat 7 (t.lin.toNat - 1)
    linReload := if quarter = true ∧ t.ctrl = false then false else t.linReload
    len := lenAfter half t.len t.ctrl }

theorem eq_zero_iff {k : Nat} (v : BitVec k) : v = 0 ↔ v.toNat = 0 := by rw [BitVec.toNat_eq]; rfl

/-- Counting down above 0. -/
theorem sub_one_eq_ofNat {k : Nat} {v : BitVec k} (hk : 0 < k) (h : v.toNat ≠ 0) : v - 1 = BitVec.ofNat k (v.toNat - 1) := by
  have hv := v.isLt
  have h1 : (1 : BitVec k).toNat = 1 := by
    show 1 % 2 ^ k = 1
    exact Nat.mod_eq_of_lt (Nat.one_lt_two_pow (by omega))
  apply BitVec.eq_of_toNat_eq
  rw [BitVec.toNat_sub, h1, BitVec.toNat_ofNat, Nat.mod_eq_of_lt (by omega : v.toNat - 1 < 2 ^ k),
    show 2 ^ k - 1 + v.toNat = 2 ^ k + (v.toNat - 1) by omega, Nat.add_mod_left, Nat.mod_eq_of_lt (by omega)]

theorem decay_eq (v : BitVec 4) (halt : Bool) : (if v ≠ 0 then v - 1 else if halt = true then 15 else v) =
    if 0 < v.toNat then BitVec.ofNat 4 (v.toNat - 1) else if halt = true then 15 else 0 := by
  by_cases h : v = 0
  · subst h; rfl
  · have hn : v.toNat ≠ 0 := fun e => h ((eq_zero_iff v).mpr e)
    rw [if_pos h, if_pos (Nat.pos_of_ne_zero hn), sub_one_eq_ofNat (by decide) hn]

theorem envelope_clock_eq (e : Envelope) (vol : BitVec 4) (halt : Bool) : e.clock vol halt = envAfter true e vol halt := by
  unfold Envelope.clock envAfter
  simp only [decay_eq, eq_zero_iff, Bool.true_eq_false, if_false]
  split
  · rfl
  · split
    · rfl
    · rw [sub_one_eq_ofNat (by decide) ‹_›]

theorem lengthClock_eq (l : Byte) (halt : Bool) : lengthClock l halt = lenAfter true l halt := by
  unfold lengthClock lenAfter
  have hcond : (decide (l ≠ 0) && !halt) = true ↔ true = true ∧ 0 < l.toNat ∧ halt = false := by
    simp only [Bool.and_eq_true, decide_eq_true_eq, ne_eq, eq_zero_iff, Bool.not_eq_true', true_and, Nat.pos_iff_ne_zero]
  by_cases h : true = true ∧ 0 < l.toNat ∧ halt = false
  · rw [if_pos (hcond.mpr h), if_pos h, sub_one_eq_ofNat (by decide) (by omega)]
  · rw [if_neg (fun e => h (hcond.mp e)), if_neg h]

theorem swDiv_eq (v load : BitVec 3) (reload : Bool) :
    (if v.toNat = 0 ∨ reload = true then load else v - 1) =
      if v.toNat = 0 ∨ reload = true then load else BitVec.ofNat 3 (v.toNat - 1) := by
  by_cases h : v.toNat = 0 ∨ reload = true
  · rw [if_pos h, if_pos h]
  · rw [if_neg h, if_neg h, sub_one_eq_ofNat (by decide) fun e => h (.inl e)]

/-- A half frame of a pulse channel: its sweep, then its length counter. -/
theorem sweepClock_eq (p : Pulse) (one : Bool) :
    { p.sweepClock one with len := lengthClock (p.sweepClock one).len (p.sweepClock one).halt } = pulseAfter false true one p := by
  have htarget : p.sweepTarget one = if p.swNeg = true then p.period.toNat - ((p.period.toNat / 2 ^ p.swShift.toNat : Nat) : Int) -
      (if one = true then 1 else 0) else p.period.toNat + ((p.period.toNat / 2 ^ p.swShift.toNat : Nat) : Int) := by
    rw [Pulse.sweepTarget, BitVec.toNat_ushiftRight, Nat.shiftRight_eq_div_pow]
  have hmoves : (p.swDiv = 0 && p.swEn && p.swShift != 0 && !p.muted one) = true ↔ true = true ∧ p.swDiv.toNat = 0 ∧ p.swEn = true ∧
      p.swShift.toNat ≠ 0 ∧ 8 ≤ p.period.toNat ∧ p.sweepTarget one ≤ 0x7FF := by
    simp only [Pulse.muted, Bool.and_eq_true, decide_eq_true_eq, bne_iff_ne, Bool.not_eq_true', Bool.or_eq_false_iff, ne_eq,
      decide_eq_false_iff_not, eq_zero_iff, true_and, and_assoc, not_lt, gt_iff_lt]
  have hreload : (p.swDiv = 0 || p.swReload) = true ↔ p.swDiv.toNat = 0 ∨ p.swReload = true := by
    simp only [Bool.or_eq_true, decide_eq_true_eq, eq_zero_iff]
  unfold pulseAfter
  simp only [← htarget, Pulse.sweepClock, lengthClock_eq, hmoves, hreload, swDiv_eq, true_and, Bool.true_eq_false,
    if_false]
  rfl

theorem linearClock_eq (t : Triangle) : { t.linearClock with len := lengthClock t.len t.ctrl } = triangleAfter true true t := by
  have hlin : (if t.lin ≠ 0 then t.lin - 1 else t.lin) = BitVec.ofNat 7 (t.lin.toNat - 1) := by
    by_cases h : t.lin = 0
    · rw [h]; rfl
    · rw [if_pos h, sub_one_eq_ofNat (by decide) fun e => h ((eq_zero_iff _).mpr e)]
  have hreload : (t.linReload && t.ctrl) = if true = true ∧ t.ctrl = false then false else t.linReload := by
    cases t.linReload <;> cases t.ctrl <;> rfl
  simp only [Triangle.linearClock, triangleAfter, lengthClock_eq, hlin, hreload]
  rfl

/-- The units after the clocks of one step: a quarter frame where `quarter`, then a half frame where `half`. -/
def Apu.clocked (quarter half : Bool) (a : Apu) : Apu :=
  let a := if quarter = true then a.quarterFrame else a
  if half = true then a.halfFrame else a

theorem pulseAfter_none (one : Bool) (p : Pulse) : pulseAfter false false one p = p := by
  simp [pulseAfter, envAfter, lenAfter]

theorem pulseAfter_quarter (one : Bool) (p : Pulse) :
    pulseAfter true false one p = { p with env := envAfter true p.env p.vol p.halt } := by
  simp [pulseAfter, lenAfter]

theorem triangleAfter_none (t : Triangle) : triangleAfter false false t = t := by
  simp [triangleAfter, lenAfter]

theorem triangleAfter_quarter (t : Triangle) : triangleAfter true false t = t.linearClock := by
  have h : triangleAfter true false t = { triangleAfter true true t with len := t.len } := by
    simp [triangleAfter, lenAfter]
  rw [h, ← linearClock_eq]
  rfl

/-- A half frame goes with a quarter frame (62_apu.md R780). -/
theorem clocked_eq {quarter half : Bool} (h : half = true → quarter = true) (a : Apu) : a.clocked quarter half =
    { a with
      p1 := pulseAfter quarter half true a.p1, p2 := pulseAfter quarter half false a.p2
      tri := triangleAfter quarter half a.tri
      noi := { a.noi with env := envAfter quarter a.noi.env a.noi.vol a.noi.halt, len := lenAfter half a.noi.len a.noi.halt } } := by
  cases half with
  | false => cases quarter with
    | false =>
      rw [pulseAfter_none, pulseAfter_none, triangleAfter_none]
      rfl
    | true =>
      rw [pulseAfter_quarter, pulseAfter_quarter, triangleAfter_quarter]
      simp only [Apu.clocked, Apu.quarterFrame, ← envelope_clock_eq, lenAfter]
      rfl
  | true => cases quarter with
    | false => exact absurd (h rfl) (by decide)
    | true =>
      have hp (one : Bool) (p : Pulse) : pulseAfter true true one p =
          pulseAfter false true one { p with env := p.env.clock p.vol p.halt } := by
        rw [envelope_clock_eq]
        rfl
      rw [hp, hp, ← sweepClock_eq, ← sweepClock_eq, ← linearClock_eq, ← envelope_clock_eq, ← lengthClock_eq]
      rfl

/-! The count and what its new value does. -/

/-- The half frames of a step whose count comes to `n` (62_apu.md R780). -/
def halfAt (mode : Bool) (n : Nat) : Bool := decide (n = 14913 ∨ n = if mode = true then 37281 else 29829)

/-- The quarter frames. -/
def quarterAt (mode : Bool) (n : Nat) : Bool := halfAt mode n || decide (n = 7457 ∨ n = 22371)

/-- Where neither a clock nor the end of the sequence is. -/
theorem clocks_none {mode : Bool} {n : Nat} (h1 : n ≠ 7457) (h2 : n ≠ 14913) (h3 : n ≠ 22371)
    (h4 : n ≠ if mode = true then 37281 else 29829) : halfAt mode n = false ∧ quarterAt mode n = false := by
  have hhalf : halfAt mode n = false := decide_eq_false (not_or.mpr ⟨h2, h4⟩)
  exact ⟨hhalf, by rw [quarterAt, hhalf, decide_eq_false (not_or.mpr ⟨h1, h3⟩)]; rfl⟩

theorem sequencerAction_eq (a : Apu) : a.sequencerAction =
    { a.clocked (quarterAt a.fc.mode a.fc.cycle) (halfAt a.fc.mode a.fc.cycle) with
    fc := { a.fc with
      cycle := if a.fc.cycle = (if a.fc.mode = true then 37282 else 29830) then 0 else a.fc.cycle
      irq := a.fc.irq || (!a.fc.inhibit && !a.fc.mode && decide (29828 ≤ a.fc.cycle ∧ a.fc.cycle ≤ 29830)) } } := by
  obtain ⟨p1, p2, tri, noi, e1, e2, e3, e4, dmc, ⟨mode, inhibit, n, d, irq⟩, acc⟩ := a
  cases mode with
  | false =>
    unfold Apu.sequencerAction
    dsimp only
    split
    case h_7 | h_8 => contradiction
    case h_9 =>
      rename_i n _ _ h1 h2 h3 h4 h5 h6 _ _
      obtain ⟨hhalf, hquarter⟩ := clocks_none (mode := false) h1 h2 h3 (h5 rfl)
      have hend : ¬ n = if false = true then 37282 else 29830 := h6 rfl
      have hirq : ¬ (29828 ≤ n ∧ n ≤ 29830) := by
        have h4 : n ≠ 29828 := h4 rfl
        have h5 : n ≠ 29829 := h5 rfl
        have h6 : n ≠ 29830 := h6 rfl
        omega
      rw [hhalf, hquarter, if_neg hend, decide_eq_false hirq, Bool.and_false, Bool.or_false]
      rfl
    all_goals cases inhibit <;> cases irq <;> rfl
  | true =>
    unfold Apu.sequencerAction
    dsimp only
    split
    case h_4 | h_5 | h_6 => contradiction
    case h_9 =>
      rename_i n _ _ h1 h2 h3 _ _ _ h4 h5
      obtain ⟨hhalf, hquarter⟩ := clocks_none (mode := true) h1 h2 h3 (h4 rfl)
      have hend : ¬ n = if true = true then 37282 else 29830 := h5 rfl
      rw [hhalf, hquarter, if_neg hend, Bool.not_true, Bool.and_false, Bool.false_and, Bool.or_false]
      rfl
    all_goals cases inhibit <;> cases irq <;> rfl

/-- The clocks leave the frame counter alone, whatever it is. -/
theorem clocked_fc (quarter half : Bool) (a : Apu) (f : FrameCounter) :
    ({ a with fc := f } : Apu).clocked quarter half = { a.clocked quarter half with fc := f } := by
  cases quarter <;> cases half <;> rfl

theorem clocked_both (mode : Bool) (a : Apu) : (if mode = true then a.quarterFrame.halfFrame else a) = a.clocked mode mode := by
  cases mode <;> rfl

/-- Settles O47: a step is its clocks (`clocked_eq`) and the count; the clocks of a count are `sequencerAction_eq`. -/
theorem frameSequencerClocksTheUnits : Obligations.FrameSequencerClocksTheUnits := by
  unfold Obligations.FrameSequencerClocksTheUnits
  intro a f due count half quarter env len pulse
  have hcount : frameCycleNext f.cycle = count := by
    show (if f.cycle < 37286 then f.cycle + 1 else 37286) = min (f.cycle + 1) 37286
    split <;> omega
  have hseq : a.sequencer = { a.clocked quarter half with fc := { f with
      resetDelay := f.resetDelay - 1
      cycle := if due = true ∨ count = (if f.mode = true then 37282 else 29830) then 0 else count
      irq := f.irq || (!due && !f.inhibit && !f.mode && decide (29828 ≤ count ∧ count ≤ 29830)) } } := by
    by_cases hd : f.resetDelay = 1
    · have hdue : due = true := decide_eq_true hd
      have hhalf : half = f.mode := if_pos hdue
      have hquarter : quarter = f.mode := by
        show (half || (!due && _)) = _
        rw [hdue, Bool.not_true, Bool.false_and, Bool.or_false, hhalf]
      have hb : a.sequencer =
          ({ a with fc := { f with resetDelay := f.resetDelay - 1, cycle := 0 } } : Apu).clocked f.mode f.mode := by
        rw [← clocked_both]
        exact if_pos hd
      rw [hb, clocked_fc, hhalf, hquarter, hdue]
      simp only [Bool.not_true, Bool.false_and, Bool.or_false, true_or, if_true]
    · have hdue : due = false := decide_eq_false hd
      have hhalf : half = halfAt f.mode count := if_neg (by rw [hdue]; decide)
      have hquarter : quarter = quarterAt f.mode count := by
        show (half || (!due && _)) = _
        rw [hdue, Bool.not_false, Bool.true_and, hhalf]
        rfl
      have hb : a.sequencer =
          ({ a with fc := { f with resetDelay := f.resetDelay - 1, cycle := count } } : Apu).sequencerAction := by
        rw [← hcount]
        exact if_neg hd
      rw [hb, sequencerAction_eq, clocked_fc, hhalf, hquarter, hdue]
      simp only [Bool.not_false, Bool.true_and, Bool.false_eq_true, false_or]
  have hqh : half = true → quarter = true := fun h => by show (half || _) = true; rw [h]; rfl
  rw [hseq, clocked_eq hqh]
  rfl


/-! ### Timers (62_apu.md R776, R777, R787 to R791) -/

theorem pulse_clock_eq (p : Pulse) : p.clock =
    if p.timer.toNat = 0 then { p with timer := p.period, seq := BitVec.ofNat 3 (p.seq.toNat + 7) }
    else { p with timer := BitVec.ofNat 11 (p.timer.toNat - 1) } := by
  have hseq : ∀ q : BitVec 3, q - 1 = BitVec.ofNat 3 (q.toNat + 7) := by decide
  unfold Pulse.clock
  simp only [eq_zero_iff, hseq]
  split
  · rfl
  · rw [sub_one_eq_ofNat (by decide) ‹_›]

theorem triangle_clock_eq (t : Triangle) : t.clock =
    if t.timer.toNat = 0 then
      { t with timer := t.period
               seq := if 0 < t.len.toNat ∧ 0 < t.lin.toNat then BitVec.ofNat 5 (t.seq.toNat + 1) else t.seq }
    else { t with timer := BitVec.ofNat 11 (t.timer.toNat - 1) } := by
  have hseq : ∀ q : BitVec 5, q + 1 = BitVec.ofNat 5 (q.toNat + 1) := by decide
  unfold Triangle.clock
  simp only [eq_zero_iff, hseq, Bool.and_eq_true, decide_eq_true_eq, ne_eq, ← Nat.pos_iff_ne_zero]
  split
  · rfl
  · rw [sub_one_eq_ofNat (by decide) ‹_›]

/-- A bit of the shift register, by division. -/
theorem toNat_getLsbD_lfsr (r : BitVec 15) (k : Nat) : (r.getLsbD k).toNat = r.toNat / 2 ^ k % 2 := by
  rw [← BitVec.testBit_toNat, Nat.testBit_eq_decide_div_mod_eq]
  rcases Nat.mod_two_eq_zero_or_one (r.toNat / 2 ^ k) with h | h <;> rw [h] <;> rfl

theorem lfsrNext_eq (mode : Bool) (r : BitVec 15) : lfsrNext mode r =
    BitVec.ofNat 15 (r.toNat / 2 + 16384 * ((r.toNat / 2 ^ 0 % 2 + r.toNat / 2 ^ (if mode = true then 6 else 1) % 2) % 2)) := by
  have hr := r.isLt
  have hxor : ∀ a b : Bool, (if (a ^^ b) = true then 0x4000 else 0 : BitVec 15).toNat = ((a.toNat + b.toNat) % 2) <<< 14 := by decide
  have htap : (if mode = true then r.getLsbD 6 else r.getLsbD 1) = r.getLsbD (if mode = true then 6 else 1) := by
    cases mode <;> rfl
  apply BitVec.eq_of_toNat_eq
  rw [lfsrNext, htap, BitVec.toNat_or, BitVec.toNat_ushiftRight, hxor, Nat.or_comm, Nat.shiftRight_eq_div_pow,
    ← Nat.shiftLeft_add_eq_or_of_lt (by omega), toNat_getLsbD_lfsr, toNat_getLsbD_lfsr, BitVec.toNat_ofNat, Nat.shiftLeft_eq]
  omega

theorem noise_clock_eq (n : Noise) : n.clock =
    if n.timer.toNat = 0 then { n with timer := noiseReload n.perIdx, lfsr := lfsrNext n.mode n.lfsr }
    else { n with timer := BitVec.ofNat 12 (n.timer.toNat - 1) } := by
  unfold Noise.clock
  simp only [eq_zero_iff]
  split
  · rfl
  · rw [sub_one_eq_ofNat (by decide) ‹_›]

/-- The level after an event of the output unit (62_apu.md R791). -/
def dmcLevelAfter (d : Dmc) : Nat :=
  if d.silence = true then d.level.toNat
  else if d.shift.toNat % 2 = 1 then (if d.level.toNat ≤ 125 then d.level.toNat + 2 else d.level.toNat)
  else (if 2 ≤ d.level.toNat then d.level.toNat - 2 else d.level.toNat)

theorem dmcLevel_eq (d : Dmc) : (if d.silence = true then d.level
    else if d.shift.getLsbD 0 = true then (if d.level ≤ 125 then d.level + 2 else d.level)
    else (if d.level ≥ 2 then d.level - 2 else d.level)) = BitVec.ofNat 7 (dmcLevelAfter d) := by
  have hbit : d.shift.getLsbD 0 = true ↔ d.shift.toNat % 2 = 1 := by
    rw [getLsbD_eq_bit, Spec.bit, decide_eq_true_eq, Nat.pow_zero, Nat.div_one]
  have hsame : d.level = BitVec.ofNat 7 d.level.toNat := by rw [BitVec.ofNat_toNat, BitVec.setWidth_eq]
  have hadd : d.level + 2 = BitVec.ofNat 7 (d.level.toNat + 2) := by rw [BitVec.ofNat_add, ← hsame]; rfl
  have hsub (h : 2 ≤ d.level.toNat) : d.level - 2 = BitVec.ofNat 7 (d.level.toNat - 2) := by bv_omega
  have hhigh : d.level ≤ 125 ↔ d.level.toNat ≤ 125 := BitVec.le_def
  have hlow : d.level ≥ 2 ↔ 2 ≤ d.level.toNat := BitVec.le_def
  unfold dmcLevelAfter
  simp only [hbit, hhigh, hlow, hadd, apply_ite (BitVec.ofNat 7), ← hsame]
  by_cases h : 2 ≤ d.level.toNat
  · rw [if_pos h, if_pos h, hsub h]
  · rw [if_neg h, if_neg h]

/-- The output unit of the DMC (62_apu.md R791). -/
theorem dmc_output_eq (d : Dmc) : let last := d.bits ≤ 1
    d.output = { d with
      level := BitVec.ofNat 7 (dmcLevelAfter d)
      bits := if last then 8 else d.bits - 1
      silence := if last then d.bufEmpty else d.silence
      shift := if last ∧ d.bufEmpty = false then d.buffer else BitVec.ofNat 8 (d.shift.toNat / 2)
      bufEmpty := if last then true else d.bufEmpty } := by
  intro last
  have hlast : d.bits - 1 = 0 ↔ last := by show _ ↔ d.bits ≤ 1; omega
  have hshift : d.shift >>> 1 = BitVec.ofNat 8 (d.shift.toNat / 2) := by
    rw [← BitVec.setWidth_eq (x := d.shift >>> 1), setWidth_eq_ofNat, toNat_shiftRight, Nat.pow_one]
  unfold Dmc.output
  simp only [dmcLevel_eq, hlast, hshift]
  by_cases h : last
  · cases d.bufEmpty <;> simp [h]
  · simp [h]

theorem dmc_clock_eq (d : Dmc) : d.clock =
    if d.timer.toNat = 0 then { d.output with timer := dmcReload d.rateIdx }
    else { d with timer := BitVec.ofNat 9 (d.timer.toNat - 1) } := by
  unfold Dmc.clock
  simp only [eq_zero_iff]
  split
  · rfl
  · rw [sub_one_eq_ofNat (by decide) ‹_›]

/-! ### Channel outputs (62_apu.md R787, R789) -/

/-- The duty patterns, by position. -/
def dutyPattern (k : BitVec 2) : List Nat :=
  ([[0, 0, 0, 0, 0, 0, 0, 1], [0, 0, 0, 0, 0, 0, 1, 1], [0, 0, 0, 0, 1, 1, 1, 1], [1, 1, 1, 1, 1, 1, 0, 0]] : List (List Nat)).getD
    k.toNat []

theorem dutyBit_eq : ∀ (k : BitVec 2) (s : BitVec 3), (!dutyBit k s) = decide ((dutyPattern k).getD s.toNat 0 = 0) := by decide

/-- The mute of a pulse channel: a negated sweep never reaches past the period (62_apu.md R784). -/
theorem muted_iff (p : Pulse) (first : Bool) : p.muted first = true ↔ p.period.toNat < 8 ∨
    (p.swNeg = false ∧ 0x7FF < p.period.toNat + p.period.toNat / 2 ^ p.swShift.toNat) := by
  have hp : p.period.toNat < 2048 := p.period.isLt
  have htarget : p.sweepTarget first > 0x7FF ↔
      p.swNeg = false ∧ 0x7FF < p.period.toNat + p.period.toNat / 2 ^ p.swShift.toNat := by
    rw [Pulse.sweepTarget, BitVec.toNat_ushiftRight, Nat.shiftRight_eq_div_pow]
    generalize p.period.toNat / 2 ^ p.swShift.toNat = c
    cases p.swNeg with
    | true =>
      have : (p.period.toNat : Int) - c - (if first = true then 1 else 0) ≤ 0x7FF := by split <;> omega
      simpa using this
    | false =>
      simp only [Bool.false_eq_true, if_false, true_and]
      omega
  simp only [Pulse.muted, Bool.or_eq_true, decide_eq_true_eq, htarget]

theorem pulse_out_eq (p : Pulse) (first : Bool) : p.out first =
    if (dutyPattern p.duty).getD p.seq.toNat 0 = 0 ∨ p.len.toNat = 0 ∨ p.period.toNat < 8 ∨
      (p.swNeg = false ∧ 0x7FF < p.period.toNat + p.period.toNat / 2 ^ p.swShift.toNat) then 0
    else envOut p.constVol p.vol p.env := by
  unfold Pulse.out
  simp only [dutyBit_eq, Bool.or_eq_true, decide_eq_true_eq, muted_iff, eq_zero_iff, or_assoc]

theorem noise_out_eq (n : Noise) : n.out =
    if n.lfsr.toNat % 2 = 1 ∨ n.len.toNat = 0 then 0 else envOut n.constVol n.vol n.env := by
  have hbit : n.lfsr.getLsbD 0 = true ↔ n.lfsr.toNat % 2 = 1 := by
    rw [← BitVec.testBit_toNat, Nat.testBit_eq_decide_div_mod_eq, decide_eq_true_eq, Nat.pow_zero, Nat.div_one]
  unfold Noise.out
  simp only [Bool.or_eq_true, decide_eq_true_eq, hbit, eq_zero_iff]

/-! ### The mixer (62_apu.md R800) -/

/-- The exact rational mix of the pulse sum `pm` and the sum `tm` of the other channels. -/
def mixOf (pm tm : Rat) : Rat := 597 * pm / (50800 + 625 * pm) + 16367 * tm / (2432900 + 10000 * tm)

theorem floor_natCast_div (n d : Nat) : ((n : Rat) / (d : Rat)).floor = ((n / d : Nat) : Int) := by
  rw [Int.natCast_div]
  exact Rat.floor_natCast_div_natCast n d

theorem mixSample_eq_floor (p1 p2 t n d : Nat) :
    ((mixSample p1 p2 t n d : Nat) : Int) = (32767 * mixOf (p1 + p2) (3 * t + 2 * n + d)).floor := by
  have hp : (50800 + 625 * (p1 + p2) : Rat) ≠ 0 := by positivity
  have ht : (2432900 + 10000 * (3 * t + 2 * n + d) : Rat) ≠ 0 := by positivity
  unfold mixSample
  dsimp only
  rw [← floor_natCast_div]
  congr 1
  push_cast
  unfold mixOf
  field_simp

theorem mixSample_le {p1 p2 t n d : Nat} (h1 : p1 ≤ 15) (h2 : p2 ≤ 15) (h3 : t ≤ 15) (h4 : n ≤ 15) (h5 : d ≤ 127) :
    mixSample p1 p2 t n d ≤ 32767 := by
  unfold mixSample
  dsimp only
  generalize hp : p1 + p2 = pm
  generalize ht : 3 * t + 2 * n + d = tm
  have hpm : pm ≤ 30 := by omega
  have htm : tm ≤ 202 := by omega
  have hp : 597 * pm * 100000 ≤ 25752 * (50800 + 625 * pm) := by linarith only [hpm]
  have ht : 16367 * tm * 100000 ≤ 74248 * (2432900 + 10000 * tm) := by linarith only [htm]
  generalize 50800 + 625 * pm = dp at hp ⊢
  generalize 2432900 + 10000 * tm = dt at ht ⊢
  refine Nat.div_le_of_le_mul ?_
  have h : 597 * pm * dt + 16367 * tm * dp ≤ dp * dt := by
    have hp := Nat.mul_le_mul_right dt hp
    have ht := Nat.mul_le_mul_right dp ht
    nlinarith only [hp, ht]
  nlinarith only [h]

theorem envOut_le (const : Bool) (vol : BitVec 4) (e : Envelope) : envOut const vol e ≤ 15 := by
  have hv := vol.isLt
  have hd := e.decay.isLt
  unfold envOut
  split <;> omega

theorem pulse_out_le (p : Pulse) (first : Bool) : p.out first ≤ 15 := by
  unfold Pulse.out
  split
  · exact Nat.zero_le _
  · exact envOut_le _ _ _

theorem noise_out_le (n : Noise) : n.out ≤ 15 := by
  unfold Noise.out
  split
  · exact Nat.zero_le _
  · exact envOut_le _ _ _

theorem triangleOut_le (q : BitVec 5) : triangleOut q ≤ 15 := by
  have hq := q.isLt
  unfold triangleOut
  split <;> omega

/-- A channel output behind its enable (62_apu.md R801). -/
def gated (on : Bool) (k : Nat) : Nat := if on = true then k else 0

theorem gated_le {on : Bool} {k b : Nat} (h : k ≤ b) : gated on k ≤ b := by
  unfold gated
  split <;> omega

theorem gated_cast (on : Bool) (k : Nat) : ((gated on k : Nat) : Rat) = if on = true then (k : Rat) else 0 := by
  cases on <;> rfl

/-- The sample of a cycle, exactly. -/
theorem toNat_mix (a : Apu) (c : Channels) :
    (((a.mix c).toNat : Nat) : Int) = (32767 * mixOf (gated c.square1 (a.p1.out true) + gated c.square2 (a.p2.out false))
      (3 * gated c.triangle (triangleOut a.tri.seq) + 2 * gated c.noise a.noi.out + gated c.dmc a.dmc.level.toNat)).floor ∧
    (a.mix c).toNat ≤ 32767 := by
  have hd : a.dmc.level.toNat ≤ 127 := Nat.le_of_lt_succ a.dmc.level.isLt
  have hle := mixSample_le (gated_le (on := c.square1) (pulse_out_le a.p1 true))
    (gated_le (on := c.square2) (pulse_out_le a.p2 false)) (gated_le (on := c.triangle) (triangleOut_le a.tri.seq))
    (gated_le (on := c.noise) (noise_out_le a.noi)) (gated_le (on := c.dmc) hd)
  have hmix : (a.mix c).toNat = mixSample (gated c.square1 (a.p1.out true)) (gated c.square2 (a.p2.out false))
      (gated c.triangle (triangleOut a.tri.seq)) (gated c.noise a.noi.out) (gated c.dmc a.dmc.level.toNat) :=
    Nat.mod_eq_of_lt (lt_of_le_of_lt hle (by decide))
  rw [hmix]
  exact ⟨mixSample_eq_floor _ _ _ _ _, hle⟩

/-! ### The resampler (62_apu.md R802, R803) -/

theorem resamplerNext_eq (rate acc : Nat) : resamplerNext rate acc =
    if 19687500 ≤ acc + 11 * rate then acc + 11 * rate - 19687500 else acc + 11 * rate := by
  simp only [resamplerNext, resamplerEmits, decide_eq_true_eq, ge_iff_le]
  rfl

theorem resamplerBuffer_eq (rate : Nat) (a : Apu) (c : Channels) (buf : List (BitVec 16 × BitVec 16)) :
    resamplerBuffer rate a c buf = if a.rsAcc + 11 * rate < 19687500 then buf
      else (if 4 * ((rate + 59) / 60) ≤ buf.length then buf.drop 1 else buf) ++ [(a.mix c, a.mix c)] := by
  have h : resamplerEmits rate a.rsAcc = true ↔ ¬ a.rsAcc + 11 * rate < 19687500 := by
    rw [resamplerEmits, decide_eq_true_eq, ge_iff_le, not_lt]
    rfl
  unfold resamplerBuffer
  by_cases hlt : a.rsAcc + 11 * rate < 19687500
  · rw [if_neg fun e => h.mp e hlt, if_pos hlt]
  · rw [if_pos (h.mpr hlt), if_neg hlt]
    rfl

/-- Settles O48: each unit's clock and output is one of the lemmas above, the sample `toNat_mix`, the rest of the cycle
`resamplerNext_eq` and `resamplerBuffer_eq`. -/
theorem timersOutputsMixerAndResampler : Obligations.TimersOutputsMixerAndResampler := by
  unfold Obligations.TimersOutputsMixerAndResampler
  refine ⟨fun a cycles c => ⟨?timers, ?mix⟩, fun s => ⟨?_, ?_⟩⟩
  case timers =>
    unfold Apu.timers
    rw [pulse_clock_eq, pulse_clock_eq, triangle_clock_eq, noise_clock_eq, dmc_clock_eq, dmc_output_eq, lfsrNext_eq]
    by_cases odd : cycles % 2 = 1
    · simp only [odd, if_true, not_true, if_false]
      rfl
    · simp only [odd, if_false, not_false_iff, if_true]
  case mix =>
    intro volume duty out gate pm tm
    have h := toNat_mix a c
    simp only [gated_cast] at h
    rw [pulse_out_eq, pulse_out_eq, noise_out_eq] at h
    exact h
  · rw [← resamplerNext_eq]
    rfl
  · exact resamplerBuffer_eq _ _ _ _

end Sys2Proof.Machine

/-! The mappers and the controller ports (63_cartridge_mappers.md, 64_frame_driver_io.md R900 to R903): register writes, the
scanline counter, and the shift registers of the ports. -/

namespace Sys2Proof.Machine

/-- A bit of a bit vector of any width, by division. -/
theorem getLsbD_eq_decide {k : Nat} (v : BitVec k) (i : Nat) : v.getLsbD i = decide (v.toNat / 2 ^ i % 2 = 1) := by
  rw [← BitVec.testBit_toNat, Nat.testBit_eq_decide_div_mod_eq]

/-! ### The scanline counter (63_cartridge_mappers.md R870, R880, R881) -/

theorem Mmc3.clockCounter_counter (r : Mmc3) : r.clockCounter.counter.toNat =
    if r.counter.toNat = 0 ∨ r.reload = true then r.latch.toNat else r.counter.toNat - 1 := by
  unfold Mmc3.clockCounter
  simp only [Bool.or_eq_true, decide_eq_true_eq, eq_zero_iff]
  split
  · rfl
  · bv_omega

theorem Mmc3.clockCounter_irq (r : Mmc3) : r.clockCounter.irq =
    (r.irq || (decide (r.clockCounter.counter.toNat = 0) && r.irqEn)) := by
  have h (v : Byte) : (v == 0) = decide (v.toNat = 0) := by
    rw [← decide_eq_decide.mpr (eq_zero_iff v), beq_eq_decide]
  show (r.irq || (r.clockCounter.counter == 0 && r.irqEn)) = _
  rw [h]

/-- Of the registers only the one at an even address from $E000 up touches the interrupt line. -/
theorem Mmc3.write_irq (r : Mmc3) {a : Word} (h : 0x8000 ≤ a.toNat) (v : Byte) :
    (r.write a v).irq = (r.irq && !decide (0xE000 ≤ a.toNat ∧ a.toNat % 2 = 0)) := by
  have ha := a.isLt
  have hbits : (r.write a v).irq = (r.irq && !(a.getLsbD 14 && a.getLsbD 13 && !a.getLsbD 0)) := by
    unfold Mmc3.write
    cases a.getLsbD 14 <;> cases a.getLsbD 13 <;> cases a.getLsbD 0 <;> simp
  have hrow : (a.getLsbD 14 && a.getLsbD 13 && !a.getLsbD 0) = decide (0xE000 ≤ a.toNat ∧ a.toNat % 2 = 0) := by
    rw [Bool.eq_iff_iff]
    simp only [getLsbD_eq_decide, Bool.and_eq_true, Bool.not_eq_true', decide_eq_true_eq, decide_eq_false_iff_not]
    omega
  rw [hbits, hrow]

/-- The filter of A12: the time stamps are subtracted in 64 bits. -/
theorem a12Filter_iff (cycles : Nat) (last : BitVec 64) :
    3 ≤ stampOf cycles - last ↔ 3 ≤ (cycles + 2 ^ 64 - last.toNat) % 2 ^ 64 := by
  have hlast := last.isLt
  rw [BitVec.le_def, BitVec.toNat_sub, stampOf, BitVec.toNat_ofNat]
  show 3 ≤ _ ↔ _
  omega

/-- Settles O53, one lemma for each operation of the counter. -/
theorem scanlineCounterRaisesTheIrq : Obligations.ScanlineCounterRaisesTheIrq := by
  unfold Obligations.ScanlineCounterRaisesTheIrq
  refine ⟨fun r => ⟨rfl, r.clockCounter_counter, r.clockCounter_irq, rfl⟩, fun r a v h => r.write_irq h v,
    fun r cycles a => ?_, fun m cycles a h => ?_⟩
  · have h12 : a.getLsbD 12 = true ↔ a.toNat / 4096 % 2 = 1 := by rw [getLsbD_eq_decide, decide_eq_true_eq]; rfl
    unfold Mapper.ppuAddr
    simp only [h12, a12Filter_iff]
    rfl
  · cases m with
    | mmc3 r => exact absurd rfl (h r)
    | nrom => exact ⟨rfl, rfl⟩
    | mmc1 r => exact ⟨rfl, rfl⟩
    | uxrom b => exact ⟨rfl, rfl⟩
    | cnrom c => exact ⟨rfl, rfl⟩
    | axrom r => exact ⟨rfl, rfl⟩

/-! ### Register writes (63_cartridge_mappers.md R861 to R870) -/

/-- From $8000 up a write changes the mapper registers and open bus alone. -/
theorem busWrite_register {s : State} {a : Word} (h : s.image.isSome = true) (ha : 0x8000 ≤ a.toNat) (v : Byte) :
    busWrite a v s = { s with mach := { s.mach with
      openBus := v, mapper := s.mach.mapper.writeRegister s.mach.hidden.cycles a v } } := by
  obtain ⟨img, himg⟩ := Option.isSome_iff_exists.mp h
  have hcart : region a = .cartridge := region_cartridge.mpr (by bv_omega)
  have h6 : ¬ a < 0x6000 := by bv_omega
  have h8 : ¬ a < 0x8000 := by bv_omega
  simp only [busWrite, hcart, writeRegion, mapperCpuWrite, himg, if_neg h6, if_neg h8]

/-- The MMC3 decodes of an address its 8 KB range and its lowest bit alone. -/
theorem Mmc3.write_row {a b : Word} (hb : b.toNat / 8192 = a.toNat / 8192) (hlow : b.toNat % 2 = a.toNat % 2)
    (r : Mmc3) (v : Byte) : r.write a v = r.write b v := by
  have h14 : a.getLsbD 14 = b.getLsbD 14 := by
    rw [getLsbD_eq_decide, getLsbD_eq_decide, Nat.pow_succ, ← Nat.div_div_eq_div_mul, ← Nat.div_div_eq_div_mul]
    exact congrArg (fun n => decide (n / 2 % 2 = 1)) hb.symm
  have h13 : a.getLsbD 13 = b.getLsbD 13 := by
    rw [getLsbD_eq_decide, getLsbD_eq_decide]
    exact congrArg (fun n => decide (n % 2 = 1)) hb.symm
  have h0 : a.getLsbD 0 = b.getLsbD 0 := by
    rw [getLsbD_eq_decide, getLsbD_eq_decide, Nat.pow_zero, Nat.div_one, Nat.div_one, hlow]
  unfold Mmc3.write
  rw [h14, h13, h0]

/-- The bit that a serial write shifts in. -/
theorem serialBit_eq (v : Byte) : (v &&& 1).setWidth 5 = BitVec.ofNat 5 (v.toNat % 2) := by
  rw [setWidth_eq_ofNat, BitVec.toNat_and]
  exact congrArg (BitVec.ofNat 5) (Nat.and_one_is_mod _)

/-- One of the first four serial writes. -/
theorem Mmc1.write_shift {r : Mmc1} {c : Nat} {v : Byte} (hc : stampOf c ≠ r.lastWrite + 1) (hv : v.toNat < 128)
    (hcount : r.count < 4) (a : Word) : r.write c a v = { r with
      lastWrite := stampOf c, shift := r.shift ||| (BitVec.ofNat 5 (v.toNat % 2) <<< r.count), count := r.count + 1 } := by
  have h7 : ¬ v.getLsbD 7 = true := by rw [getLsbD_eq_decide, decide_eq_true_eq]; omega
  unfold Mmc1.write
  rw [if_neg hc, if_neg h7, serialBit_eq, if_pos hcount]

/-- The fifth serial write loads the register that bits 14 and 13 of its address name. -/
theorem Mmc1.write_load {r : Mmc1} {c : Nat} {v : Byte} (hc : stampOf c ≠ r.lastWrite + 1) (hv : v.toNat < 128)
    (hcount : r.count = 4) (a : Word) : let value := r.shift ||| (BitVec.ofNat 5 (v.toNat % 2) <<< 4)
      let sel := a.toNat / 8192 % 4
      r.write c a v = { r with
        lastWrite := stampOf c, shift := 0, count := 0
        ctrl := if sel = 0 then value else r.ctrl, chr0 := if sel = 1 then value else r.chr0
        chr1 := if sel = 2 then value else r.chr1, prg := if sel = 3 then value else r.prg } := by
  intro value sel
  have h7 : ¬ v.getLsbD 7 = true := by rw [getLsbD_eq_decide, decide_eq_true_eq]; omega
  have hsel : sel = 2 * (a.getLsbD 14).toNat + (a.getLsbD 13).toNat := by
    rw [← BitVec.testBit_toNat, ← BitVec.testBit_toNat, Nat.toNat_testBit, Nat.toNat_testBit]
    show a.toNat / 8192 % 4 = _
    omega
  unfold Mmc1.write
  rw [if_neg hc, if_neg h7, serialBit_eq, if_neg (by omega), hsel, hcount]
  cases a.getLsbD 14 <;> cases a.getLsbD 13 <;> rfl

/-- Five bits shifted in, the first lowest. -/
theorem serialValue_eq (v1 v2 v3 v4 v5 : Nat) :
    (((((0 ||| BitVec.ofNat 5 (v1 % 2) <<< 0) ||| BitVec.ofNat 5 (v2 % 2) <<< 1) ||| BitVec.ofNat 5 (v3 % 2) <<< 2) |||
      BitVec.ofNat 5 (v4 % 2) <<< 3) ||| BitVec.ofNat 5 (v5 % 2) <<< 4) =
    BitVec.ofNat 5 (v1 % 2 + 2 * (v2 % 2) + 4 * (v3 % 2) + 8 * (v4 % 2) + 16 * (v5 % 2)) := by
  have h : ∀ b1 b2 b3 b4 b5 : Fin 2,
      (((((0 ||| BitVec.ofNat 5 b1.val <<< 0) ||| BitVec.ofNat 5 b2.val <<< 1) ||| BitVec.ofNat 5 b3.val <<< 2) |||
        BitVec.ofNat 5 b4.val <<< 3) ||| BitVec.ofNat 5 b5.val <<< 4) =
      BitVec.ofNat 5 (b1.val + 2 * b2.val + 4 * b3.val + 8 * b4.val + 16 * b5.val) := by decide
  have hlt (v : Nat) : v % 2 < 2 := Nat.mod_lt _ (by decide)
  exact h ⟨_, hlt v1⟩ ⟨_, hlt v2⟩ ⟨_, hlt v3⟩ ⟨_, hlt v4⟩ ⟨_, hlt v5⟩

/-- Settles O52: the registers by `busWrite_register` and `Mmc3.write_row`, the serial load by four `Mmc1.write_shift` and one
`Mmc1.write_load`. -/
theorem mapperRegisterWrites : Obligations.MapperRegisterWrites := by
  unfold Obligations.MapperRegisterWrites
  refine ⟨fun s a v himg ha => ?_, fun r c1 c2 c3 c4 c5 a1 a2 a3 a4 a5 v1 v2 v3 v4 v5 => ?_,
    fun r c a v => ⟨fun h => ?_, fun hc hv => ?_⟩⟩
  · have h := busWrite_register himg ha v
    have hm : (busWrite a v s).mach.mapper = s.mach.mapper.writeRegister s.mach.hidden.cycles a v := by rw [h]
    refine ⟨by rw [hm]; exact h, fun e => by rw [hm, e]; rfl, fun b e => by rw [hm, e]; rfl, fun b e => by rw [hm, e]; rfl,
      fun b e => by rw [hm, e]; rfl, fun r e => by rw [hm, e]; rfl, fun r e => ⟨r.write a v, by rw [hm, e]; rfl, ?_⟩⟩
    have hrow (b : Word)
        (h : b.toNat / 8192 * 8192 ≤ a.toNat ∧ a.toNat < b.toNat / 8192 * 8192 + 0x2000 ∧ a.toNat % 2 = b.toNat % 2) :
        r.write a v = r.write b v := Mmc3.write_row (by omega) (by omega) r v
    refine ⟨hrow 0x8000, fun hr => ⟨by rw [hrow 0x8001 hr]; rfl, fun i => ?_⟩, hrow 0xA000, hrow 0xA001, hrow 0xC000, hrow 0xC001,
      hrow 0xE000, hrow 0xE001⟩
    rw [hrow 0x8001 hr]
    show (r.r.set r.sel.toFin v)[i.val] = _
    rw [Vector.getElem_set]
    exact if_congr eq_comm rfl rfl
  · intro stamp hshift hcount h1 h2 h3 h4 h5 hv1 hv2 hv3 hv4 hv5 q value sel
    show ((((r.write c1 a1 v1).write c2 a2 v2).write c3 a3 v3).write c4 a4 v4).write c5 a5 v5 = _
    rw [Mmc1.write_shift h1 hv1 (by omega), hshift, hcount, Mmc1.write_shift ?_ hv2 ?_, Mmc1.write_shift ?_ hv3 ?_,
      Mmc1.write_shift ?_ hv4 ?_, Mmc1.write_load ?_ hv5 ?_]
    · have e := serialValue_eq v1.toNat v2.toNat v3.toNat v4.toNat v5.toNat
      rw [show value = _ from e.symm]
      rfl
    · exact h5
    · rfl
    · exact h4
    · exact (by decide : 3 < 4)
    · exact h3
    · exact (by decide : 2 < 4)
    · exact h2
    · exact (by decide : 1 < 4)
  · exact if_pos h
  · have h7 : v.getLsbD 7 = true := by rw [getLsbD_eq_decide, decide_eq_true_eq]; omega
    unfold Mmc1.write
    rw [if_neg (show ¬ stampOf c = r.lastWrite + 1 from hc), if_pos h7]
    rfl

/-! ### Controller ports (64_frame_driver_io.md R900, R901, R903) -/

/-- The shift register of a port. -/
def Ports.shreg (p : Ports) (second : Bool) : Byte := if second then p.shreg1 else p.shreg0

/-- What a read of the port `side` leaves in the shift register of the port `second`, while the strobe is low. -/
theorem Ports.shreg_shifted {p : Ports} (h : p.strobe = false) (side second : Bool) : (p.shifted side).shreg second =
    if side = second then (p.shreg second >>> 1) ||| 0x80 else p.shreg second := by
  cases side <;> cases second <;> simp [Ports.shreg, Ports.shifted, h]

theorem getLsbD_shiftIn {v : Byte} {j : Nat} (hj : j < 8) : ((v >>> 1) ||| 0x80).getLsbD j =
    if j + 1 < 8 then v.getLsbD (j + 1) else true := by
  rw [BitVec.getLsbD_or, BitVec.getLsbD_ushiftRight, Nat.add_comm 1 j]
  interval_cases j <;> simp

/-- The shift register of a port after any sequence of reads of both. -/
theorem Ports.shreg_reads (second : Bool) (reads : List Bool) {p : Ports} (h : p.strobe = false) {j : Nat} (hj : j < 8) :
    ((reads.foldl Ports.shifted p).shreg second).getLsbD j =
      if j + reads.count second < 8 then (p.shreg second).getLsbD (j + reads.count second) else true := by
  induction reads generalizing p with
  | nil => rw [List.foldl_nil, List.count_nil, Nat.add_zero, if_pos hj]
  | cons side reads ih =>
    have hs : (p.shifted side).strobe = false := h
    rw [List.foldl_cons, ih hs, Ports.shreg_shifted h, List.count_cons]
    by_cases he : side = second
    · rw [if_pos he, if_pos (beq_iff_eq.mpr he)]
      by_cases hk : j + reads.count second < 8
      · rw [if_pos hk, getLsbD_shiftIn hk, Nat.add_assoc]
      · rw [if_neg hk, if_neg (by omega)]
    · rw [if_neg he, if_neg fun e => he (beq_iff_eq.mp e), Nat.add_zero]

/-- Reads change neither the strobe nor the latched masks. -/
theorem Ports.reads_same (reads : List Bool) (p : Ports) : (reads.foldl Ports.shifted p).strobe = p.strobe ∧
    (reads.foldl Ports.shifted p).latched0 = p.latched0 ∧ (reads.foldl Ports.shifted p).latched1 = p.latched1 := by
  induction reads generalizing p with
  | nil => exact ⟨rfl, rfl, rfl⟩
  | cons side reads ih => exact ih (p.shifted side)

theorem toNat_readByte (p : Ports) (second : Bool) : ∀ openBus : Byte,
    (p.readByte second openBus).toNat = openBus.toNat / 32 * 32 + (if p.readBit second = true then 1 else 0) := by
  unfold Ports.readByte
  cases p.readBit second <;> decide

/-- Settles O54, by induction over the reads in `Ports.shreg_reads`. -/
theorem controllersShiftOutTheButtons : Obligations.ControllersShiftOutTheButtons := by
  unfold Obligations.ControllersShiftOutTheButtons
  have h1 : region 0x4016 = .port1 := by decide
  have h2 : region 0x4017 = .port2 := by decide
  refine ⟨fun s v => ?_, fun p reads second => ?_⟩
  · simp only [busWrite, busRead, h1, h2, writeRegion, readRegion, toNat_readByte, and_self]
  · intro q latched k
    obtain ⟨hstrobe, -, -⟩ := Ports.reads_same reads ((p.strobeWrite 1).strobeWrite 0)
    obtain ⟨hhigh, h0, h1⟩ := Ports.reads_same reads (p.strobeWrite 1)
    constructor
    · have h := Ports.shreg_reads second reads (p := (p.strobeWrite 1).strobeWrite 0) rfl (j := 0) (by decide)
      rw [Nat.zero_add] at h
      rw [Ports.readBit, if_neg (by rw [hstrobe]; exact Bool.false_ne_true)]
      exact h
    · rw [Ports.readBit, if_pos (by rw [hhigh]; rfl), h0, h1]
      rfl


/-! ### Banks (63_cartridge_mappers.md R855, R859) -/

/-- An address in a memory of `k` banks of `s` bytes. -/
theorem mod_banks {s off : Nat} (h : off < s) (b k : Nat) : (s * b + off) % (s * k) = s * (b % k) + off := by
  rw [Nat.mod_mul, Nat.mul_add_mod, Nat.mod_eq_of_lt h, Nat.mul_add_div (by omega), Nat.div_eq_of_lt h, Nat.add_zero, Nat.add_comm]

theorem bankOffset_eq {s k off : Nat} (hk : 0 < k) (h : off < s) (b : Nat) :
    bankOffset (s * k) s b off = s * (b % k) + off := by
  have hs : 0 < s := by omega
  have hpos : 1 ≤ s * k := Nat.mul_pos hs hk
  rw [bankOffset, Nat.mul_div_cancel_left k hs, Nat.max_eq_right hk, Nat.max_eq_right hpos, Nat.mul_comm _ s, mod_banks h,
    Nat.mod_mod]

/-! ### PRG ROM (63_cartridge_mappers.md R863, R866 to R868, R871) -/

theorem mmc1PrgBank_eq (r : Mmc1) (n : Nat) (upper : Bool) :
    let outer := if n = 32 ∧ r.chr0.getLsbD 4 = true then 16 else 0
    let b := r.prg.toNat % 16
    let mode := r.ctrl.toNat / 4 % 4
    mmc1PrgBank r (16384 * n) upper = if mode < 2 then outer + b / 2 * 2 + (if upper = true then 1 else 0)
      else if mode = 2 then (if upper = true then outer + b else outer) else (if upper = true then outer + 15 else outer + b) := by
  intro outer b mode
  have houter : (if (decide (16384 * n = 524288) && r.chr0.getLsbD 4) = true then 16 else 0) = outer := by
    refine if_congr ?_ rfl rfl
    rw [Bool.and_eq_true, decide_eq_true_eq, show 16384 * n = 524288 ↔ n = 32 by omega]
  have hb : (r.prg.setWidth 4).toNat = b := BitVec.toNat_setWidth ..
  have hmode : mode = 2 * (r.ctrl.getLsbD 3).toNat + (r.ctrl.getLsbD 2).toNat := by
    rw [← BitVec.testBit_toNat, ← BitVec.testBit_toNat, Nat.toNat_testBit, Nat.toNat_testBit]
    show r.ctrl.toNat / 4 % 4 = _
    omega
  unfold mmc1PrgBank
  rw [houter, hb, hmode]
  cases r.ctrl.getLsbD 3 <;> cases r.ctrl.getLsbD 2 <;> rfl

theorem mmc3PrgBank_mod {n : Nat} (hn : 0 < n) (r : Mmc3) {w : Nat} (hw : w < 4) :
    let r6 := (r.reg 6).toNat % 64 % (2 * n)
    let r7 := (r.reg 7).toNat % 64 % (2 * n)
    mmc3PrgBank r (2 * n) w % (2 * n) = if w = 0 then (if r.prgMode = true then 2 * n - 2 else r6) else if w = 1 then r7
      else if w = 2 then (if r.prgMode = true then r6 else 2 * n - 2) else 2 * n - 1 := by
  intro r6 r7
  have h6 : ((r.reg 6).setWidth 6).toNat % (2 * n) = r6 := congrArg (· % (2 * n)) (BitVec.toNat_setWidth ..)
  have h7 : ((r.reg 7).setWidth 6).toNat % (2 * n) = r7 := congrArg (· % (2 * n)) (BitVec.toNat_setWidth ..)
  have hsecond : (2 * n - 2) % (2 * n) = 2 * n - 2 := Nat.mod_eq_of_lt (by omega)
  have hlast : (2 * n - 1) % (2 * n) = 2 * n - 1 := Nat.mod_eq_of_lt (by omega)
  unfold mmc3PrgBank
  interval_cases w
  · cases r.prgMode
    · exact h6
    · exact hsecond
  · exact h7
  · cases r.prgMode
    · exact hsecond
    · exact h6
  · exact hlast

section
variable {img : Image} {a : Word}

/-- A read from $8000 up delivers the PRG ROM byte at the mapper's offset. -/
theorem mapperCpuRead_rom (ha : 0x8000 ≤ a.toNat) (c : Cart) {m : Mapper} {i : Nat} (hi : prgOffset img m a = i) :
    mapperCpuRead (some img) c m a = some (Cells.read img.prgRom i) := by
  have h6 : ¬ a < 0x6000 := by bv_omega
  have h8 : ¬ a < 0x8000 := by bv_omega
  rw [mapperCpuRead]
  rw [if_neg h6, if_neg h8, hi]

variable (hn : 0 < img.prgCount.toNat) (ha : 0x8000 ≤ a.toNat)
include hn

theorem prgOffset_flat (a : Word) : prgOffset img .nrom a = (a.toNat - 0x8000) % (16384 * img.prgCount.toNat) := by
  show _ % max 1 (16384 * img.prgCount.toNat) = _
  rw [Nat.max_eq_right (by omega)]

include ha

/-- A 16 KB window of the mappers 1 and 2. -/
theorem bankOffset_window (low high : Nat) :
    (if a.toNat < 0xC000 then bankOffset img.prgSize 16384 low (a.toNat - 0x8000)
      else bankOffset img.prgSize 16384 high (a.toNat - 0xC000)) =
      16384 * ((if a.toNat < 0xC000 then low else high) % img.prgCount.toNat) + a.toNat % 16384 := by
  have hlt := a.isLt
  unfold Image.prgSize
  by_cases h : a.toNat < 0xC000
  · rw [if_pos h, if_pos h, bankOffset_eq hn (by omega)]
    omega
  · rw [if_neg h, if_neg h, bankOffset_eq hn (by omega)]
    omega

theorem prgOffset_uxrom (b : Byte) : prgOffset img (.uxrom b) a =
    16384 * (if a.toNat < 0xC000 then b.toNat % img.prgCount.toNat else img.prgCount.toNat - 1) + a.toNat % 16384 := by
  refine (bankOffset_window hn ha b.toNat (img.prgCount.toNat - 1)).trans ?_
  rw [apply_ite (· % img.prgCount.toNat), Nat.mod_eq_of_lt (a := _ - 1) (by omega)]

theorem prgOffset_axrom (he : img.prgCount.toNat % 2 = 0) (r : Byte) : prgOffset img (.axrom r) a =
    32768 * (r.toNat % 8 % (img.prgCount.toNat / 2)) + (a.toNat - 0x8000) := by
  have hlt := a.isLt
  have hsize : img.prgSize = 32768 * (img.prgCount.toNat / 2) := by unfold Image.prgSize; omega
  show bankOffset img.prgSize 32768 (r.setWidth 3).toNat (a.toNat - 0x8000) = _
  rw [hsize, bankOffset_eq (by omega) (by omega), BitVec.toNat_setWidth]

theorem prgOffset_mmc3_eq (r : Mmc3) :
    let n := img.prgCount.toNat
    let r6 := (r.reg 6).toNat % 64 % (2 * n)
    let r7 := (r.reg 7).toNat % 64 % (2 * n)
    let bank := if a.toNat < 0xA000 then (if r.prgMode then 2 * n - 2 else r6) else if a.toNat < 0xC000 then r7
      else if a.toNat < 0xE000 then (if r.prgMode then r6 else 2 * n - 2) else 2 * n - 1
    prgOffset img (.mmc3 r) a = 8192 * bank + a.toNat % 8192 := by
  intro n r6 r7 bank
  have hlt := a.isLt
  have hsize : img.prgSize = 8192 * (2 * n) := by show 16384 * n = _; omega
  have hw : (a.toNat - 0x8000) / 8192 < 4 := by omega
  have hw0 : (a.toNat - 0x8000) / 8192 = 0 ↔ a.toNat < 0xA000 := by omega
  show bankOffset img.prgSize 8192 (mmc3PrgBank r (2 * n) ((a.toNat - 0x8000) / 8192)) (a.toNat % 8192) = _
  rw [hsize, bankOffset_eq (by omega) (by omega), mmc3PrgBank_mod hn r hw]
  refine congrArg (8192 * · + a.toNat % 8192) ?_
  refine if_ctx_congr hw0 (fun _ => rfl) fun h0 => if_ctx_congr (by omega) (fun _ => rfl) fun h1 =>
    if_ctx_congr (by omega) (fun _ => rfl) fun h2 => rfl

theorem prgOffset_mmc1_eq (r : Mmc1) :
    let n := img.prgCount.toNat
    let low := a.toNat < 0xC000
    let outer := if n = 32 ∧ r.chr0.getLsbD 4 = true then 16 else 0
    let b := r.prg.toNat % 16
    let mode := r.ctrl.toNat / 4 % 4
    let bank := if mode < 2 then outer + b / 2 * 2 + (if low then 0 else 1)
      else if mode = 2 then (if low then outer else outer + b) else (if low then outer + b else outer + 15)
    prgOffset img (.mmc1 r) a = 16384 * (bank % n) + a.toNat % 16384 := by
  intro n low outer b mode bank
  refine (bankOffset_window hn ha (mmc1PrgBank r img.prgSize false) (mmc1PrgBank r img.prgSize true)).trans ?_
  unfold Image.prgSize
  rw [mmc1PrgBank_eq, mmc1PrgBank_eq]
  by_cases h : low
  · simp only [bank, if_pos h, if_pos (show a.toNat < 0xC000 from h)]
    rfl
  · simp only [bank, if_neg h, if_neg (show ¬ a.toNat < 0xC000 from h)]
    rfl

end

/-- PRG RAM answers unless its register disables it (63_cartridge_mappers.md R858, R865, R873). -/
theorem ramReadable_eq (m : Mapper) : m.ramReadable = match m with
    | .mmc1 r => decide (r.prg.toNat < 16)
    | .mmc3 r => r.ramEn
    | .nrom | .uxrom _ | .cnrom _ | .axrom _ => true := by
  cases m with
  | mmc1 r =>
    have hr := r.prg.isLt
    show (!r.prg.getLsbD 4) = decide (r.prg.toNat < 16)
    rw [getLsbD_eq_decide, ← decide_not, decide_eq_decide]
    omega
  | nrom | uxrom b | cnrom c | axrom c | mmc3 r => rfl

/-! ### CHR memory (63_cartridge_mappers.md R855, R864, R866 to R868, R872) -/

theorem xor_four : ∀ k < 8, k ^^^ 4 = (k + 4) % 8 := by decide

theorem mmc3ChrBank_eq (r : Mmc3) {slot : Nat} (h : slot < 8) : mmc3ChrBank r slot =
    if slot < 4 then (r.reg (if slot < 2 then 0 else 1)).toNat / 2 * 2 + slot % 2 else (r.reg (BitVec.ofNat 3 (slot - 2))).toNat := by
  have heven : ∀ v : Byte, (v &&& 0xFE).toNat = v.toNat / 2 * 2 := by decide
  have hodd : ∀ v : Byte, (v ||| 1).toNat = v.toNat / 2 * 2 + 1 := by decide
  interval_cases slot
  · exact heven _
  · exact hodd _
  · exact heven _
  · exact hodd _
  all_goals rfl

/-- The number of 8 KB banks of the CHR memory: CHR RAM is one. -/
def Image.chrBanks (img : Image) : Nat := if img.chrCount.toNat = 0 then 1 else img.chrCount.toNat

theorem Image.chrSize_eq (img : Image) : img.chrSize = 8192 * img.chrBanks := by
  unfold Image.chrSize Image.chrBanks
  simp only [eq_zero_iff]
  split <;> rfl

theorem Image.chrBanks_pos (img : Image) : 0 < img.chrBanks := by
  unfold Image.chrBanks
  split <;> omega

/-- The CHR byte read, by its offset. -/
theorem chrRead_at (img : Image) {a : PpuAddr} {m : Mapper} {b off s k : Nat}
    (hoff : chrOffset m img.chrSize a = s * b + off) (hs : off < s) (hsize : 8192 * img.chrBanks = s * k) (c : Cart) :
    chrRead (some img) c m a =
      if img.chrCount.toNat = 0 then Cells.read c.chrRam (s * (b % k) + off) else Cells.read img.chrRom (s * (b % k) + off) := by
  have hpos := img.chrBanks_pos
  show (if img.chrCount = 0 then Cells.read c.chrRam (chrOffset m img.chrSize a % max 1 img.chrSize)
    else Cells.read img.chrRom (chrOffset m img.chrSize a % max 1 img.chrSize)) = _
  rw [hoff, img.chrSize_eq, Nat.max_eq_right (by omega), hsize, mod_banks hs]
  exact if_congr (eq_zero_iff _) rfl rfl

theorem chrOffset_mmc1_eq {a : PpuAddr} (r : Mmc1) (size : Nat) : chrOffset (.mmc1 r) size a =
    if r.ctrl.getLsbD 4 = true then 4096 * (if a.toNat < 4096 then r.chr0.toNat else r.chr1.toNat) + a.toNat % 4096
    else 8192 * (r.chr0.toNat / 2) + a.toNat := by
  have heven : ∀ v : BitVec 5, (v &&& 0x1E).toNat = v.toNat / 2 * 2 := by decide
  show (if r.ctrl.getLsbD 4 = true then (if a.toNat < 0x1000 then r.chr0.toNat else r.chr1.toNat) * 4096 + a.toNat % 4096
    else (r.chr0 &&& 0x1E).toNat * 4096 + a.toNat) = _
  rw [heven]
  split <;> omega

section
variable {a : PpuAddr} (ha : a.toNat < 0x2000)
include ha

theorem chrRead_flat (img : Image) {m : Mapper} (hm : chrOffset m img.chrSize a = a.toNat) (c : Cart) : chrRead (some img) c m a =
    if img.chrCount.toNat = 0 then Cells.read c.chrRam a.toNat else Cells.read img.chrRom a.toNat := by
  have h := chrRead_at img (b := 0) (off := a.toNat) (hm.trans (by omega)) ha rfl c
  rwa [Nat.zero_mod, Nat.mul_zero, Nat.zero_add] at h

theorem chrOffset_mmc3_eq (r : Mmc3) (size : Nat) :
    let slot := if r.chrInv = true then (a.toNat / 1024 + 4) % 8 else a.toNat / 1024
    let bank := if slot < 4 then (r.reg (if slot < 2 then 0 else 1)).toNat / 2 * 2 + slot % 2
      else (r.reg (BitVec.ofNat 3 (slot - 2))).toNat
    chrOffset (.mmc3 r) size a = 1024 * bank + a.toNat % 1024 := by
  intro slot bank
  have hlt : a.toNat / 1024 < 8 := by omega
  have hslot : (a.toNat / 1024) ^^^ (if r.chrInv = true then 4 else 0) = slot := by
    show _ = if r.chrInv = true then (a.toNat / 1024 + 4) % 8 else a.toNat / 1024
    split
    · exact xor_four _ hlt
    · exact Nat.xor_zero _
  have hslot8 : slot < 8 := by dsimp only [slot]; split <;> omega
  show mmc3ChrBank r ((a.toNat / 1024) ^^^ (if r.chrInv = true then 4 else 0)) * 1024 + a.toNat % 1024 = _
  rw [hslot, mmc3ChrBank_eq r hslot8, Nat.mul_comm]

end

/-! ### Mirroring (63_cartridge_mappers.md R856, R862, R868, R873) -/

theorem mirroring_page (img : Image) (m : Mapper) (n : Nat) : (mapperMirroring (some img) m).page n =
    if img.fourScreen = true then n
    else match m with
    | .mmc1 r => if r.ctrl.toNat % 4 < 2 then r.ctrl.toNat % 4 else if r.ctrl.toNat % 4 = 2 then n % 2 else n / 2
    | .mmc3 r => if r.mirror = true then n / 2 else n % 2
    | .axrom r => r.toNat / 16 % 2
    | .nrom | .uxrom _ | .cnrom _ => if img.vertical = true then n % 2 else n / 2 := by
  unfold mapperMirroring
  by_cases hfour : img.fourScreen = true
  · simp only [hfour, if_true]
    rfl
  simp only [if_neg hfour]
  cases m with
  | mmc1 r =>
    have hmode : r.ctrl.toNat % 4 = 2 * (r.ctrl.getLsbD 1).toNat + (r.ctrl.getLsbD 0).toNat := by
      rw [← BitVec.testBit_toNat, ← BitVec.testBit_toNat, Nat.toNat_testBit, Nat.toNat_testBit]
      omega
    dsimp only
    rw [hmode]
    cases r.ctrl.getLsbD 1 <;> cases r.ctrl.getLsbD 0 <;> rfl
  | axrom r =>
    have hbit : r.toNat / 16 % 2 = (r.getLsbD 4).toNat := by rw [← BitVec.testBit_toNat, Nat.toNat_testBit]
    dsimp only
    rw [hbit]
    cases r.getLsbD 4 <;> rfl
  | mmc3 r =>
    dsimp only
    cases r.mirror <;> rfl
  | nrom | uxrom b | cnrom c =>
    dsimp only
    cases img.vertical <;> rfl

/-- Settles O51: one lemma for the PRG offset and one for the CHR offset of each mapper. -/
theorem mapperBanksAndMirroring : Obligations.MapperBanksAndMirroring := by
  unfold Obligations.MapperBanksAndMirroring
  refine ⟨fun img c m a => ⟨fun h => ?_, fun h6 h8 => ?_⟩, fun img c a hcount ha => ?_, fun img c a v ha => ?_,
    fun img m n _ => mirroring_page img m n⟩
  · have h6 : a < 0x6000 := by bv_omega
    rw [mapperCpuRead]
    rw [if_pos h6]
  · have h6 : ¬ a < 0x6000 := by bv_omega
    have h8 : a < 0x8000 := by bv_omega
    rw [mapperCpuRead]
    rw [if_neg h6, if_pos h8]
    exact congrArg (fun on : Bool => if on = true then some (Cells.read c.prgRam (a.toNat - 0x6000)) else none) (ramReadable_eq m)
  · have hn : 0 < img.prgCount.toNat := Nat.pos_of_ne_zero fun e => hcount ((eq_zero_iff _).mpr e)
    exact ⟨mapperCpuRead_rom ha c (prgOffset_flat hn a), fun _ => mapperCpuRead_rom ha c (prgOffset_flat hn a),
      fun b => mapperCpuRead_rom ha c (prgOffset_uxrom hn ha b), fun r he => mapperCpuRead_rom ha c (prgOffset_axrom hn ha he r),
      fun r => mapperCpuRead_rom ha c (prgOffset_mmc3_eq hn ha r), fun r => mapperCpuRead_rom ha c (prgOffset_mmc1_eq hn ha r)⟩
  · intro k n shows
    refine ⟨chrRead_flat ha img rfl c, fun b => chrRead_flat ha img rfl c, fun r => chrRead_flat ha img rfl c, fun r => ?_,
      fun r => ?_, fun r => ?_, fun h m => ?_⟩
    · have hoff : chrOffset (.cnrom r) img.chrSize a = 8192 * (r.toNat % k) + n := by
        show (r.toNat % max 1 (img.chrSize / 8192)) * 8192 + n = _
        rw [img.chrSize_eq, Nat.mul_div_cancel_left _ (by decide), Nat.max_eq_right img.chrBanks_pos, Nat.mul_comm]
        rfl
      have h := chrRead_at img hoff ha rfl c
      rwa [show img.chrBanks = k from rfl, Nat.mod_mod] at h
    · have hoff := chrOffset_mmc1_eq (a := a) r img.chrSize
      by_cases h4 : r.ctrl.getLsbD 4 = true
      · rw [if_pos h4] at hoff ⊢
        exact chrRead_at img hoff (Nat.mod_lt _ (by decide)) (by show 8192 * k = 4096 * (2 * k); omega) c
      · rw [if_neg h4] at hoff ⊢
        exact chrRead_at img hoff ha rfl c
    · exact chrRead_at img (chrOffset_mmc3_eq ha r img.chrSize) (Nat.mod_lt _ (by decide))
        (by show 8192 * k = 1024 * (8 * k); omega) c
    · exact if_neg fun e => h ((eq_zero_iff _).mp e)

end Sys2Proof.Machine

/-! `runFrame` comes to the end of a frame (64_frame_driver_io.md R908): until the PPU publishes one, every cycle takes it
three dots further along the grid, which has 89342. -/

namespace Sys2Proof.Machine

/-- The number of dots before this one in the frame. -/
def gridPosition (p : Ppu) : Nat := 341 * p.scanline + p.dot

theorem gridPosition_le {p : Ppu} (ok : PpuOk p) : gridPosition p ≤ 89341 := by
  have hs := ok.scanline
  have hd := ok.dot
  unfold gridPosition
  omega

/-- What the dots of a state start from. -/
def State.dots (s : State) : DotOut :=
  { ppu := s.mach.ppu, mapper := s.mach.mapper, frame := s.host.frameBuffer, done := s.mach.frameDone }

/-- Either a frame has been published, or the PPU is at position `n` of the one it draws. -/
def Drawing (n : Nat) (o : DotOut) : Prop := (o.done = true ∧ o.frame.isSome = true) ∨ (o.done = false ∧ gridPosition o.ppu = n)

theorem Drawing.of_same {n : Nat} {o q : DotOut} (h : Drawing n o) (hdone : q.done = o.done) (hframe : q.frame = o.frame)
    (hppu : SameCounters o.ppu q.ppu) : Drawing n q := by
  unfold Drawing gridPosition at h ⊢
  rwa [hdone, hframe, hppu.scanline, hppu.dot]

/-- A dot publishes the frame or goes one position on. -/
theorem Drawing.tick {n : Nat} {o : DotOut} (h : Drawing n o) (w : PpuWorld) (ok : PpuOk o.ppu) :
    Drawing (n + 1) (ppuTick w o) := by
  obtain ⟨hend, hinside⟩ := ppuTick_counters w ok
  by_cases hlast : AtFrameEnd o.ppu
  · obtain ⟨-, -, -, hframe, hdone⟩ := hend hlast
    exact .inl ⟨hdone, by rw [hframe]; rfl⟩
  · obtain ⟨-, hframe, hdone, hpos, -⟩ := hinside hlast
    refine h.imp (fun ⟨h1, h2⟩ => ⟨hdone.trans h1, hframe ▸ h2⟩) fun ⟨h1, h2⟩ => ⟨hdone.trans h1, hpos.trans ?_⟩
    exact congrArg (· + 1) h2

/-- A cycle takes three dots. -/
theorem Drawing.endCycle {n : Nat} {s : State} (h : Drawing n s.dots) (ok : CoreOk s.mach) :
    Drawing (n + 3) (endCycle s).dots := by
  have ok0 : DotOk s.dots := ⟨ok.ppu, ok.memories.fbWork, ok.mapper⟩
  have ok1 := ppuTick_ok s.ppuWorld ok0
  have ok2 := ppuTick_ok s.ppuWorld ok1
  have h3 : Drawing (n + 3) (threeDots s) := ((h.tick s.ppuWorld ok0.ppu).tick s.ppuWorld ok1.ppu).tick s.ppuWorld ok2.ppu
  exact h3.of_same rfl rfl (.refl _)

theorem busRead_counters (a : Word) (s : State) : SameCounters s.mach.ppu (busRead a s).2.mach.ppu := by
  unfold busRead
  cases region a with
  | ppuReg r => exact ppuRegRead_same s.ppuWorld r s.mach.ppu s.mach.mapper
  | workRam _ | apuChannel _ | oamDma | apuStatus | port1 | port2 | testRegs | cartridge => exact .refl _

theorem busWrite_counters (a : Word) (v : Byte) (s : State) : SameCounters s.mach.ppu (busWrite a v s).mach.ppu := by
  unfold busWrite
  cases region a with
  | ppuReg r => exact ppuRegWrite_same s.ppuWorld r v s.mach.ppu s.mach.mapper
  | workRam _ | apuChannel _ | oamDma | apuStatus | port1 | port2 | testRegs | cartridge => exact .refl _

theorem Drawing.busRead {n : Nat} {s : State} (h : Drawing n s.dots) (a : Word) : Drawing n (busRead a s).2.dots :=
  h.of_same (busRead_frameDone a s) (congrArg HostSide.frameBuffer (busRead_host a s)) (busRead_counters a s)

theorem Drawing.busWrite {n : Nat} {s : State} (h : Drawing n s.dots) (a : Word) (v : Byte) : Drawing n (busWrite a v s).dots :=
  h.of_same (busWrite_frameDone a v s) (congrArg HostSide.frameBuffer (busWrite_host a v s)) (busWrite_counters a v s)

/-- Along any path of pieces the PPU goes three dots a cycle, until it publishes a frame. -/
theorem drawing_micro {s t : State} (hm : Micro s t) (ok : CoreOk s.mach) {n : Nat} (h : Drawing n s.dots) :
    ∃ k, t.mach.hidden.cycles = s.mach.hidden.cycles + k ∧ Drawing (n + 3 * k) t.dots := by
  induction hm with
  | refl => exact ⟨0, rfl, h⟩
  | endCycle hm ih =>
    obtain ⟨k, hk, h⟩ := ih
    exact ⟨k + 1, by rw [endCycle_cycles, hk, Nat.add_assoc], h.endCycle (micro_coreOk hm ok)⟩
  | read hm a ih =>
    obtain ⟨k, hk, h⟩ := ih
    exact ⟨k + 1, by rw [dummyRead_cycles, hk, Nat.add_assoc], (h.busRead a).endCycle (coreOk_busRead a (micro_coreOk hm ok))⟩
  | write hm a v ih =>
    obtain ⟨k, hk, h⟩ := ih
    exact ⟨k + 1, by rw [memWrite_cycles, hk, Nat.add_assoc],
      (h.busWrite a v).endCycle (coreOk_busWrite a v (micro_coreOk hm ok))⟩
  | regs _ _ ih => exact ih
  | hidden _ _ hc ih =>
    obtain ⟨k, hk, h⟩ := ih
    exact ⟨k, hc.trans hk, h⟩
  | fetched _ _ _ ih => exact ih
  | dmaDone _ ih => exact ih

/-- With enough steps for the rest of the frame, one is published. -/
theorem stepsToFrame_drawn (fuel : Nat) {s : State} (inv : s.Inv) {n : Nat} (h : Drawing n s.dots) (hn : 89341 < n + 3 * fuel) :
    (stepsToFrame fuel s).mach.frameDone = true ∧ (stepsToFrame fuel s).host.frameBuffer.isSome = true := by
  induction fuel generalizing s n with
  | zero =>
    refine h.resolve_right fun ⟨_, hpos⟩ => ?_
    have hle := gridPosition_le (p := s.dots.ppu) inv.ppu
    omega
  | succ fuel ih =>
    obtain ⟨t, hstep, hcycles⟩ := everyStepGoesOn s
    obtain ⟨k, hk, ht⟩ := drawing_micro (micro_of_step hstep) inv.core h
    unfold stepsToFrame
    rw [hstep]
    dsimp only
    by_cases hdone : t.mach.frameDone = true
    · rw [if_pos hdone]
      exact ht.resolve_right fun ⟨hfalse, _⟩ => absurd (hdone.symm.trans hfalse) (by decide)
    · rw [if_neg hdone]
      exact ih (everyStepKeepsTheInvariant s t inv hstep) ht (by omega)

/-- The steps of a frame leave the frame count and the latched input. -/
theorem stepsToFrame_kept (fuel : Nat) (s : State) : (stepsToFrame fuel s).mach.frameCount = s.mach.frameCount ∧
    (stepsToFrame fuel s).mach.ports.latched0 = s.mach.ports.latched0 ∧
    (stepsToFrame fuel s).mach.ports.latched1 = s.mach.ports.latched1 := by
  induction fuel generalizing s with
  | zero => exact ⟨rfl, rfl, rfl⟩
  | succ fuel ih =>
    obtain ⟨t, hstep, -⟩ := everyStepGoesOn s
    obtain ⟨-, -, hcount, h0, h1, -⟩ := noStepChangesImageOrHost s t hstep
    obtain ⟨ihcount, ih0, ih1⟩ := ih t
    unfold stepsToFrame
    rw [hstep]
    dsimp only
    split
    · exact ⟨hcount, h0, h1⟩
    · exact ⟨ihcount.trans hcount, ih0.trans h0, ih1.trans h1⟩

theorem inv_frameStart {s : State} (inv : s.Inv) : (frameStart s).Inv :=
  ⟨{ inv.memories with }, inv.ppu, inv.apu, inv.mapper, inv.noDma, inv.latch⟩

theorem updateFps_frameBuffer (now : Rat) (h : HostSide) : (h.updateFps now).frameBuffer = h.frameBuffer := by
  unfold HostSide.updateFps
  split <;> rfl

/-- Settles O55, by induction on the steps: each is a path of pieces (`micro_of_step`) that takes the PPU on (`drawing_micro`). -/
theorem runFrameCompletesAFrame : Obligations.RunFrameCompletesAFrame := by
  unfold Obligations.RunFrameCompletesAFrame
  intro s now inv hrun
  have hstart : Drawing (gridPosition s.mach.ppu) (frameStart s).dots := .inr ⟨rfl, rfl⟩
  obtain ⟨hdone, hframe⟩ := stepsToFrame_drawn frameFuel (inv_frameStart inv) hstart (by unfold frameFuel; omega)
  obtain ⟨hcount, h0, h1⟩ := stepsToFrame_kept frameFuel (frameStart s)
  rw [runFrame, if_pos hrun]
  exact ⟨hdone, (congrArg Option.isSome (updateFps_frameBuffer now _)).trans hframe, congrArg (· + 1) hcount, h0, h1⟩

end Sys2Proof.Machine
